-- ==== Sys2Proof/Word.lean ====
section
/-! DEFINITION. The words of the machine (spec/00_scope.md R7, R8): bits are numbered from 0 upward and
every value is unsigned. -/

namespace Sys2Proof

/-- A 16-bit word: a command word, a response word, a word of the read buffer (R6, parameter `W`). -/
abbrev Word := BitVec 16

/-- A 64-bit host request word (spec/30_encoding.md R80). -/
abbrev ReqWord := BitVec 64

end Sys2Proof
end

