-- ==== Sys2Proof/Config.lean ====
section
/-! DEFINITION. The named sets of the spec, the parameters of spec/00_scope.md R6 and R37, and the free
values (the spec's draws and its oracle), which have no body. -/

namespace Sys2Proof

/-- The five named commands, in the spec's order (spec/40_command_encoder.md R102). -/
inductive Cmd where
  | nop | clrerr | diag | mag | angle
  deriving DecidableEq, Repr

/-- The fourteen operations of the request port (spec/30_encoding.md R87). -/
inductive Op where
  | exec | read | readSeq | readAngle | readAngleSeq | rdbuf | setfreq
  | mask | maskb | parity | errIdx | errAny | deg | rad
  deriving DecidableEq, Repr

/-- The refusal codes (spec/60_exceptions.md R222). -/
inductive RefuseCode where
  | none | rsvdOp | rsvdField | rsvdCsel | idxRange | lenRange | freqRange | cfgN
  deriving DecidableEq, Repr

/-- The command ROM `CMDVAL`: one word per command. Every such table meets R104, so nothing more is
assumed of it (spec/40_command_encoder.md R103, R104). -/
structure Rom where
  nop    : Word
  clrerr : Word
  diag   : Word
  mag    : Word
  angle  : Word
  deriving DecidableEq, Repr

/-- The named bit positions of a diagnostics response, `DIAGMASK` (spec/40_command_encoder.md R108). Each mask is
one bit among bits 13:0, so a mask is given by its bit. -/
structure DiagMask where
  cof     : Fin 14
  magHigh : Fin 14
  magLow  : Fin 14
  deriving DecidableEq, Repr

/-- The order in which a word's bits go on the serial wires (spec/00_scope.md R6, `BIT_ORDER`). -/
inductive BitOrder where
  | msbFirst | lsbFirst
  deriving DecidableEq, Repr

/-- The hardwired bus configuration (spec/10_state.md R28). -/
structure BusCfg where
  width           : Nat
  clockIdleHigh   : Bool
  sampleOnFalling : Bool
  deriving DecidableEq, Repr

/-- The parameters of the step relation that a run keeps fixed and that a claim may have to name
(spec/10_state.md R37): the command ROM, the diagnostics masks, and `T_GUARD` in nanoseconds (R123). -/
structure Params where
  rom      : Rom
  diag     : DiagMask
  tGuardNs : Nat
  deriving DecidableEq, Repr

namespace Config

/-- `NMAX`: the largest device count (R6, decision D8). -/
abbrev nMax : Nat := 255
/-- `LMAX`: the largest vector on the host vector port (R6, R80). -/
abbrev lMax : Nat := 255
/-- `FREQ_DEFAULT` in Hz (R6, R27). -/
abbrev freqDefault : BitVec 32 := 1000000#32
/-- `FREQ_MAX` in Hz (R6, R27). -/
abbrev freqMax : Nat := 10000000
/-- `DEG_FULL`: hundredths of a degree per turn (R6, R200). -/
abbrev degFull : Nat := 36000
/-- `RAD_FULL`: the radian scale constant (R6, R204). -/
abbrev radFull : Nat := 62832
/-- `DIV`: the raw-angle full scale (R6). -/
abbrev div : Nat := 16384
/-- The least legal `T_GUARD`, 1 microsecond (R123). -/
abbrev tGuardMinNs : Nat := 1000
/-- `T_SENSOR`: the sensor's own minimum chip-select time, "~350 ns", a property of the environment that no rule
uses (R6, spec/70_reset_and_hazards.md R264). Log entry 32. -/
abbrev tSensorNs : Nat := 350
/-- `BIT_ORDER`: the most significant bit first. The transport's business, outside the block: no rule uses it
(R6, spec/20_memory.md R51). PRESUMED, log entry 33. -/
def bitOrder : BitOrder := .msbFirst
/-- `BUSCFG` (R28). -/
def busCfg : BusCfg := ⟨16, true, true⟩

/-- The free values of the model: the n-th arbitrary 16-bit draw (`draw16()`, spec/10_state.md R23).
It has no body: no proof can use a value of it. Log entry 6. -/
opaque draw16 : Nat → Word

/-- The oracle `SensorResp(k, c, ch)`: what the device at position `k` prepares for command word `c` under
the choice `ch`, unconstrained (spec/41_transaction_executor.md R140). It has no body. Log entry 8. -/
opaque sensorResp (k : Nat) (c : Word) (ch : Nat) : Word

/-- OPEN parameter `WIRING`: the physical device at a chain position; no rule uses it (R6, R145). -/
opaque wiring : Nat → Nat
/-- OPEN parameter `FREQ_ACTUAL`: the frequency in Hz the transport produces for a requested one; no rule
uses it (R6, decision D18). -/
opaque freqActual : BitVec 32 → Nat
/-- OPEN parameter `GAP`: nanoseconds between two exchanges; no rule uses it (R6, decision D30). -/
opaque gapNs : Nat
/-- OPEN parameter `HOST_BINDING`: where the ports stand in a host system; no rule uses it (R6, R57). -/
opaque hostBinding : Nat

end Config
end Sys2Proof
end

