-- ==== Sys2Proof/Syntax.lean ====
section
/-! DEFINITION. The syntax of the instruction set: one constructor per row of spec/opcode_table.json,
fourteen host requests (spec/30_encoding.md R81, R87) and the five bus command words
(spec/40_command_encoder.md R103). The vector of MASKB is no part of its 64-bit word: it stands on the
host vector port (R83). -/

namespace Sys2Proof

/-- The instructions, with their operands as the request word carries them (R80). -/
inductive Instr where
  | exec (csel : BitVec 3)
  | read (csel : BitVec 3)
  | readSeq (csel : BitVec 3)
  | readAngle
  | readAngleSeq
  | rdbuf (idx : BitVec 8)
  | setfreq (hz : BitVec 32)
  | mask (w : Word)
  | maskb (n : BitVec 8)
  | parity (w : Word)
  | errIdx (idx : BitVec 8)
  | errAny
  | deg (w : Word)
  | rad (w : Word)
  | cmdNop
  | cmdClrerr
  | cmdDiag
  | cmdMag
  | cmdAngle
  deriving DecidableEq, Repr

end Sys2Proof
end

