-- ==== Sys2Proof/WellFormed.lean ====
section
/-! DEFINITION. Well-formed instructions: the operand checks that rest on the instruction word alone.
`CSEL` names one of the five commands (spec/30_encoding.md R82, R90). The range checks of RDBUF, MASKB and
SETFREQ compare with the machine's N, the vector's length or a limit, and are refusals of the machine
(R93), not of the syntax. -/

namespace Sys2Proof

/-- `CSEL` selects a command of the ROM: 0 to 4 (R82). -/
def cselOk (csel : BitVec 3) : Bool := decide (csel.toNat < 5)

/-- The instruction's own operand check (R90); the other instructions have none. -/
def Instr.wellFormed : Instr → Bool
  | .exec csel => cselOk csel
  | .read csel => cselOk csel
  | .readSeq csel => cselOk csel
  | .readAngle => true
  | .readAngleSeq => true
  | .rdbuf _ => true
  | .setfreq _ => true
  | .mask _ => true
  | .maskb _ => true
  | .parity _ => true
  | .errIdx _ => true
  | .errAny => true
  | .deg _ => true
  | .rad _ => true
  | .cmdNop => true
  | .cmdClrerr => true
  | .cmdDiag => true
  | .cmdMag => true
  | .cmdAngle => true

end Sys2Proof
end

