-- ==== Sys2Proof/Decode.lean ====
section
/-! DEFINITION. Decoding and encoding. The host request word is spec/30_encoding.md R80 to R93; the bus
command word is R70 and spec/40_command_encoder.md R103. Decoding is total: every word is an instruction or
is rejected by name. The three range checks that end R93 compare with the state of the machine and are made
by the meanings, after the checks here, in the spec's order (log entry 25). -/

namespace Sys2Proof

/-- The opcodes in the order of R87: the operation with code n is entry n. -/
def opTable : List Op :=
  [.exec, .read, .readSeq, .readAngle, .readAngleSeq, .rdbuf, .setfreq, .mask, .maskb, .parity,
   .errIdx, .errAny, .deg, .rad]

/-- The operation an opcode names; 0xE and 0xF name none (R88). -/
def opOfCode (c : BitVec 4) : Option Op := opTable[c.toNat]?

/-- The 4-bit opcode of an operation (R87). -/
def opCode : Op → BitVec 4
  | .exec => 0x0#4
  | .read => 0x1#4
  | .readSeq => 0x2#4
  | .readAngle => 0x3#4
  | .readAngleSeq => 0x4#4
  | .rdbuf => 0x5#4
  | .setfreq => 0x6#4
  | .mask => 0x7#4
  | .maskb => 0x8#4
  | .parity => 0x9#4
  | .errIdx => 0xA#4
  | .errAny => 0xB#4
  | .deg => 0xC#4
  | .rad => 0xD#4

/-- The 3-bit value of a refusal code (spec/60_exceptions.md R222). -/
def refuseCodeBits : RefuseCode → BitVec 3
  | .none => 0#3
  | .rsvdOp => 1#3
  | .rsvdField => 2#3
  | .rsvdCsel => 3#3
  | .idxRange => 4#3
  | .lenRange => 5#3
  | .freqRange => 6#3
  | .cfgN => 7#3

/-! ### The fields of a request word (R80) -/

def fieldOp (w : ReqWord) : BitVec 4 := w.extractLsb' 0 4
def fieldCsel (w : ReqWord) : BitVec 3 := w.extractLsb' 4 3
def fieldRsv (w : ReqWord) : BitVec 1 := w.extractLsb' 7 1
def fieldIdx (w : ReqWord) : BitVec 8 := w.extractLsb' 8 8
def fieldWord (w : ReqWord) : Word := w.extractLsb' 16 16
def fieldHz (w : ReqWord) : BitVec 32 := w.extractLsb' 32 32

/-! ### Which operation uses which field (the columns of the table of R81) -/

def usesCsel : Op → Bool
  | .exec | .read | .readSeq => true
  | _ => false
def usesIdx : Op → Bool
  | .rdbuf | .maskb | .errIdx => true
  | _ => false
def usesWord : Op → Bool
  | .mask | .parity | .deg | .rad => true
  | _ => false
def usesHz : Op → Bool
  | .setfreq => true
  | _ => false
def usesVec : Op → Bool
  | .maskb => true
  | _ => false

/-- `RSV` and every field the operation does not use are zero, and the vector is empty unless the operation
uses it (R81, R89). -/
def unusedClear (op : Op) (w : ReqWord) (len : Nat) : Bool :=
  fieldRsv w == 0#1 && (usesCsel op || fieldCsel w == 0#3) && (usesIdx op || fieldIdx w == 0#8)
    && (usesWord op || fieldWord w == 0#16) && (usesHz op || fieldHz w == 0#32)
    && (usesVec op || len == 0)

/-- The instruction of an accepted request word: the operation with the fields it uses (R81). -/
def instrOf (op : Op) (w : ReqWord) : Instr :=
  match op with
  | .exec => .exec (fieldCsel w)
  | .read => .read (fieldCsel w)
  | .readSeq => .readSeq (fieldCsel w)
  | .readAngle => .readAngle
  | .readAngleSeq => .readAngleSeq
  | .rdbuf => .rdbuf (fieldIdx w)
  | .setfreq => .setfreq (fieldHz w)
  | .mask => .mask (fieldWord w)
  | .maskb => .maskb (fieldIdx w)
  | .parity => .parity (fieldWord w)
  | .errIdx => .errIdx (fieldIdx w)
  | .errAny => .errAny
  | .deg => .deg (fieldWord w)
  | .rad => .rad (fieldWord w)

/-- What decoding a request word answers: an instruction, or the code of the first failing check. -/
inductive RequestDecode where
  | accept (i : Instr)
  | reject (code : RefuseCode)
  deriving DecidableEq, Repr

/-- Decode a request word that comes with a vector of `len` words: the first three checks of R93, in its
order. -/
def decodeRequest (w : ReqWord) (len : Nat) : RequestDecode :=
  match opOfCode (fieldOp w) with
  | none => .reject .rsvdOp
  | some op =>
    if !unusedClear op w len then .reject .rsvdField
    else if usesCsel op && !cselOk (fieldCsel w) then .reject .rsvdCsel
    else .accept (instrOf op w)

/-! ### Bus command words -/

/-- A command word from its base opcode bits and its flags: bit 14 is READ, bit 15 is PARITY (R70, R100,
R101). -/
def commandWord (base : BitVec 14) (read parity : Bool) : Word :=
  base.setWidth 16 ||| (if read then 0x4000#16 else 0#16) ||| (if parity then 0x8000#16 else 0#16)

/-- The default command ROM, row by row (R103). PRESUMED: the values are the spec's decision D4, from general
knowledge and not from the source. Log entry 4. -/
def defaultRom : Rom where
  nop    := commandWord 0x0000#14 false false
  clrerr := commandWord 0x0001#14 true false
  diag   := commandWord 0x3FFD#14 true false
  mag    := commandWord 0x3FFE#14 true false
  angle  := commandWord 0x3FFF#14 true true

/-- The ROM's word for a command (R105). -/
def romWord (rom : Rom) : Cmd → Word
  | .nop => rom.nop
  | .clrerr => rom.clrerr
  | .diag => rom.diag
  | .mag => rom.mag
  | .angle => rom.angle

/-- The instruction that stands for a command word on the bus (R103). -/
def cmdInstr : Cmd → Instr
  | .nop => .cmdNop
  | .clrerr => .cmdClrerr
  | .diag => .cmdDiag
  | .mag => .cmdMag
  | .angle => .cmdAngle

/-- The commands in the order of R102 and of `CSEL` (R82). -/
def cmdTable : List Cmd := [.nop, .clrerr, .diag, .mag, .angle]

/-- The command a selector names, none for 5 to 7 (R82). -/
def cmdOfCsel (csel : BitVec 3) : Option Cmd := cmdTable[csel.toNat]?

/-- The command a bus word stands for under a ROM: the first one with that word, none for a word that is not in
the ROM. -/
def decodeCommand (rom : Rom) (w : Word) : Option Cmd := cmdTable.find? (fun c => romWord rom c == w)

/-! ### The encoder -/

/-- The words of an instruction: one 64-bit request word or one 16-bit command word (R92). -/
inductive Encoding where
  | request (w : ReqWord)
  | command (w : Word)
  deriving DecidableEq, Repr

/-- A request word from its fields, with `RSV` zero: the formula of R94. -/
def packRequest (op : Op) (csel : BitVec 3) (idx : BitVec 8) (word : Word) (hz : BitVec 32) : ReqWord :=
  (opCode op).setWidth 64 ||| csel.setWidth 64 <<< 4 ||| idx.setWidth 64 <<< 8 ||| word.setWidth 64 <<< 16
    ||| hz.setWidth 64 <<< 32

/-- The words of an instruction, from the same tables (R81, R87, R94, R103). -/
def encode : Instr → Encoding
  | .exec csel => .request (packRequest .exec csel 0 0 0)
  | .read csel => .request (packRequest .read csel 0 0 0)
  | .readSeq csel => .request (packRequest .readSeq csel 0 0 0)
  | .readAngle => .request (packRequest .readAngle 0 0 0 0)
  | .readAngleSeq => .request (packRequest .readAngleSeq 0 0 0 0)
  | .rdbuf idx => .request (packRequest .rdbuf 0 idx 0 0)
  | .setfreq hz => .request (packRequest .setfreq 0 0 0 hz)
  | .mask w => .request (packRequest .mask 0 0 w 0)
  | .maskb n => .request (packRequest .maskb 0 n 0 0)
  | .parity w => .request (packRequest .parity 0 0 w 0)
  | .errIdx idx => .request (packRequest .errIdx 0 idx 0 0)
  | .errAny => .request (packRequest .errAny 0 0 0 0)
  | .deg w => .request (packRequest .deg 0 0 w 0)
  | .rad w => .request (packRequest .rad 0 0 w 0)
  | .cmdNop => .command defaultRom.nop
  | .cmdClrerr => .command defaultRom.clrerr
  | .cmdDiag => .command defaultRom.diag
  | .cmdMag => .command defaultRom.mag
  | .cmdAngle => .command defaultRom.angle

/-- What decoding an instruction's words answers: an instruction, a refused request, or a bus word that is none
of the five named commands. -/
inductive Decoded where
  | instr (i : Instr)
  | reject (code : RefuseCode)
  | noSuchCommand (w : Word)
  deriving DecidableEq, Repr

/-- Decode an instruction's words; `len` is the length of the vector on the host vector port. -/
def decode (e : Encoding) (len : Nat) : Decoded :=
  match e with
  | .request w =>
    match decodeRequest w len with
    | .accept i => .instr i
    | .reject code => .reject code
  | .command w =>
    match decodeCommand defaultRom w with
    | some c => .instr (cmdInstr c)
    | none => .noSuchCommand w

/-! ### The opcode table's numbering of bits -/

/-- The words of an instruction whose bits are `w`: a row of 16 bits that holds one of the five command words
is a command word; every other row is a request word, whose bits above `nbits` are zero. Log entry 24. -/
def tableEncoding (nbits w : Nat) : Encoding :=
  match nbits == 16, decodeCommand defaultRom (BitVec.ofNat 16 w) with
  | true, some _ => .command (BitVec.ofNat 16 w)
  | _, _ => .request (BitVec.ofNat 64 w)

/-- The instruction the decoder reads from an opcode-table row's bits, with an empty vector. -/
def decodeTableWord (nbits w : Nat) : Option Instr :=
  match decode (tableEncoding nbits w) 0 with
  | .instr i => some i
  | .reject _ => none
  | .noSuchCommand _ => none

end Sys2Proof
end

