-- ==== Sys2Proof/Machine/State.lean ====
section
/-! DEFINITION. The state of the machine as plain data: the block (spec/10_state.md R20), the device chain
(R36), and the inputs the environment can put to them (spec/60_exceptions.md R236). -/

namespace Sys2Proof.Machine

/-- The control state `PHASE` (spec/10_state.md R30). -/
inductive Phase where
  | idle | recover | setup | shift
  deriving DecidableEq, Repr

/-- `TXN`, the number of the transaction within the current request (R30). -/
inductive Txn where
  | one | two
  deriving DecidableEq, Repr

/-- The host response port `RESP` (R20, R34). -/
structure Resp where
  val  : Word
  flag : Bool
  vec  : List Word
  view : Bool
  deriving DecidableEq, Repr

/-- One position of the chain: `PEND`, the word it shifts out in the next transaction, and the ghost
`PENDCMD`, the command that word answers (R36). -/
structure Device where
  pend    : Word
  pendCmd : Option Word
  deriving DecidableEq, Repr

/-- One host request: `REQ` and the vector `VEC`, whose length is `L` (spec/30_encoding.md R80, R83). -/
structure Request where
  word : ReqWord
  vec  : List Word
  deriving DecidableEq, Repr

/-- The read buffer as a list of (chain position, word) cells, positions strictly rising. A word that no
transaction has written since reset has no cell: it has no value (R23). Log entry 21. -/
abbrev Buffer := List (Nat × Word)

/-- Whose step comes next (spec/60_exceptions.md R236). Log entries 9 and 10. -/
inductive Turn where
  /-- The block, with the transport, the delay primitive and the chain, whose steps are joint with its own. -/
  | block
  /-- The host issues a request (R239). -/
  | issue (r : Request)
  /-- A reset arrives, with construction parameter N = `n` (R230; spec/70_reset_and_hazards.md R250). -/
  | reset (n : Nat)
  /-- The sensors power up (spec/41_transaction_executor.md R144). -/
  | powerUp
  deriving DecidableEq, Repr

/-- Why the machine can stop. The spec itself has no fault mechanism (spec/60_exceptions.md R231). -/
inductive Fault where
  /-- Raised by `exchange` in `PHASE = SHIFT` with `K >= N`: R127 lists no transition for such a state, and
  no run reaches it. Safe: the machine stops where the spec lists no step. -/
  | noTransition
  deriving DecidableEq, Repr

/-- Why an instruction has no meaning here. A request the spec refuses is no such case: its refusal is a next
state (spec/60_exceptions.md R221). -/
inductive Refusal where
  /-- Raised by an arm of `exec` whose instruction has no meaning in the model. Safe: nothing is claimed of
  it. No arm of this model raises it. -/
  | notModelled (mnemonic : String)
  deriving DecidableEq, Repr

/-- The state. The first group is the block's (R20), then the chain's (R36), then the environment's inputs,
then the parameters (R37) and the model's counter of free values. -/
structure State where
  /-- `RBUF`, the words written since reset (R21, R23). -/
  rbuf       : Buffer
  /-- `CFG_N`, the device count N (R26). -/
  cfgN       : BitVec 8
  /-- `FREQ` in Hz (R27). -/
  freq       : BitVec 32
  /-- `CS_n`, the level of the chip-select output: true is 1, deselected (R29). -/
  csN        : Bool
  /-- `PHASE` (R30). -/
  phase      : Phase
  /-- `K`, the number of the next exchange, 0 to N (R30). -/
  k          : Nat
  /-- `TXN` (R30). -/
  txn        : Txn
  /-- `CUR_CMD` (R30). -/
  curCmd     : Word
  /-- `CUR_OP`, none while no request has been taken since reset (R20). -/
  curOp      : Option Op
  /-- `REFUSED`, sticky (R32). -/
  refused    : Bool
  /-- `REFUSE_CODE`, the first refusal's code (R32). -/
  refuseCode : RefuseCode
  /-- `RESP` (R34). -/
  resp       : Resp
  /-- `RESP_DONE`: true in the state a step leaves when that step completed a request
  (spec/30_encoding.md R84). Log entry 16. -/
  respDone   : Bool
  /-- Ghost `WRITTEN` (R24). -/
  written    : Bool
  /-- Ghost `LAST_CMD` (R35). -/
  lastCmd    : Option Word
  /-- The device chain, position 0 first (R36). -/
  chain      : List Device
  /-- The requests the host has issued and the block has not taken, oldest first: the head stands on the request
  port with `REQ_VALID = 1` (spec/30_encoding.md R84). Log entry 9. -/
  host       : List Request
  /-- Whose steps come next, the first one first; after the last of them only the block moves. The environment may
  hold any such list. Log entry 10. -/
  turns      : List Turn
  /-- The parameters of the step relation; no step writes them (R37). Log entry 2. -/
  params     : Params
  /-- The model's own counter: how many free values have been used. Log entry 6. -/
  draws      : Nat
  deriving DecidableEq, Repr

/-- The default parameters: the ROM of R103, the masks of R108 (both PRESUMED, log entries 4 and 5) and
`T_GUARD` = 1 microsecond (R123). -/
def defaultParams : Params where
  rom      := defaultRom
  diag     := ⟨9, 10, 11⟩
  tGuardNs := Config.tGuardMinNs

/-- `RESP` after reset: all zero, `vec` empty (R39). -/
def Resp.zero : Resp := ⟨0#16, false, [], false⟩

/-- The machine right after reset (R39): a block constructed with N = 1 (DESIGN CHOICE, log entry 3), with one
device behind it whose pending word is a draw (R144, log entry 7), no request on the port, and nobody but the block
to move. -/
def State.reset : State where
  rbuf       := []
  cfgN       := 1#8
  freq       := Config.freqDefault
  csN        := true
  phase      := .recover
  k          := 0
  txn        := .one
  curCmd     := 0x0000#16
  curOp      := none
  refused    := false
  refuseCode := .none
  resp       := Resp.zero
  respDone   := false
  written    := false
  lastCmd    := none
  chain      := [⟨Config.draw16 0, none⟩]
  host       := []
  turns      := []
  params     := defaultParams
  draws      := 1

end Sys2Proof.Machine
end

