-- ==== Sys2Proof/Machine/Operands.lean ====
section
/-! DEFINITION. The operands of the instructions: the fields of a response word, the command encoder, the
vector port, and the arithmetic on payloads. -/

namespace Sys2Proof.Machine

/-- The payload of a response word, bits 13:0 zero-extended (spec/30_encoding.md R72). -/
def payload (w : Word) : Word := w &&& 0x3FFF#16

/-- The command encoder `ENC`: the ROM's word for a selector, none for 5 to 7
(spec/40_command_encoder.md R105). -/
def enc (rom : Rom) (csel : BitVec 3) : Option Word := (cmdOfCsel csel).map (romWord rom)

/-- `VEC`: the vector that stands on the host vector port, empty when no request stands on the port
(spec/30_encoding.md R83). -/
def portVec (s : State) : List Word :=
  match s.host with
  | [] => []
  | r :: _ => r.vec

/-- The first `n` words masked, the rest untouched (spec/43_result_utilities.md R186). -/
def maskFirst : Nat → List Word → List Word
  | 0, ws => ws
  | _ + 1, [] => []
  | n + 1, w :: ws => payload w :: maskFirst n ws

/-- A payload scaled to `full` units per turn: the exact product, then floor division by 16384
(spec/43_result_utilities.md R182). -/
def scalePayload (full : Nat) (w : Word) : Word :=
  BitVec.ofNat 16 ((payload w).toNat * full / Config.div)

/-- DEG: hundredths of a degree (spec/43_result_utilities.md R200). -/
def degrees (w : Word) : Word := scalePayload Config.degFull w

/-- RAD: units of 1/10000 radian (spec/43_result_utilities.md R204). -/
def radians (w : Word) : Word := scalePayload Config.radFull w

/-- The mask of one payload bit: 0x0200 for bit 9 (spec/40_command_encoder.md R108). -/
def bitMask (b : Fin 14) : Word := 1#16 <<< b.val

/-- The level of a diagnostics bit in a DIAG response word; the host reads them, no rule of the block does
(spec/40_command_encoder.md R108). -/
def diagCof (p : Params) (w : Word) : Bool := w &&& bitMask p.diag.cof != 0#16
def diagMagHigh (p : Params) (w : Word) : Bool := w &&& bitMask p.diag.magHigh != 0#16
def diagMagLow (p : Params) (w : Word) : Bool := w &&& bitMask p.diag.magLow != 0#16

end Sys2Proof.Machine
end

