-- ==== Sys2Proof/Machine/Flags.lean ====
section
/-! DEFINITION. The two flags of a response word. The block has no flags of its own
(spec/10_state.md R33). -/

namespace Sys2Proof.Machine

/-- The error flag EF, bit 14 (spec/30_encoding.md R73). -/
def errorFlag (w : Word) : Bool := w.getLsbD 14

/-- The parity bit P, bit 15 (spec/30_encoding.md R73). -/
def parityBit (w : Word) : Bool := w.getLsbD 15

/-- One fold: the word with itself shifted right by one (spec/43_result_utilities.md R190). -/
def fold (x : Word) : Word := x ^^^ (x >>> 1)

/-- `n` folds. -/
def folds : Nat → Word → Word
  | 0, x => x
  | n + 1, x => folds n (fold x)

/-- The parity check: after 15 folds the low bit is 0 (spec/43_result_utilities.md R190). -/
def parityOk (w : Word) : Bool := !(folds 15 w).getLsbD 0

/-- The number of 1 bits of a word (spec/00_scope.md R8). -/
def popcount (w : Word) : Nat := (List.range 16).countP (fun j => w.getLsbD j)

/-- Some word of a sequence has its error flag set; false of the empty sequence
(spec/43_result_utilities.md R198, R199). -/
def anyError (ws : List Word) : Bool := ws.any errorFlag

end Sys2Proof.Machine
end

