-- ==== Sys2Proof/Machine/Ops.lean ====
section
/-! DEFINITION. The named operations over the state: the read buffer, free values, the response port, taking
a refusal, the chip-select controller, the transaction's steps, the device chain, reset, and the request
port. -/

namespace Sys2Proof.Machine

/-- What a step answers. -/
abbrev Result := Host.Outcome State Fault Refusal

/-! ### The read buffer (spec/20_memory.md R50) -/

/-- The cells' positions rise strictly: the canonical form of the buffer. -/
def Buffer.wf : Buffer → Bool
  | [] => true
  | [_] => true
  | a :: b :: rest => decide (a.1 < b.1) && Buffer.wf (b :: rest)

/-- The word written at a position since reset, if any. -/
def Buffer.get (i : Nat) : Buffer → Option Word
  | [] => none
  | (j, w) :: rest => if j = i then some w else Buffer.get i rest

/-- Write a word at a position, keeping the canonical form. -/
def Buffer.put (i : Nat) (v : Word) : Buffer → Buffer
  | [] => [(i, v)]
  | (j, w) :: rest =>
    if i < j then (i, v) :: (j, w) :: rest
    else if i = j then (i, v) :: rest
    else (j, w) :: Buffer.put i v rest

/-- The device count N as a number (spec/10_state.md R26). -/
def State.n (s : State) : Nat := s.cfgN.toNat

/-- `RBUF[k] <- v` (spec/10_state.md R22). -/
def writeWord (k : Nat) (v : Word) (s : State) : State := { s with rbuf := Buffer.put k v s.rbuf }

/-- Use up one free value. -/
def useDraw (s : State) : State := { s with draws := s.draws + 1 }

/-- `RBUF[i]`: the written word, or a fresh draw where no transaction has written since reset
(spec/10_state.md R23). -/
def readWord (i : Nat) (s : State) : Word × State :=
  match Buffer.get i s.rbuf with
  | some w => (w, s)
  | none => (Config.draw16 s.draws, useDraw s)

/-- Read `count` words from position `i` upward, in that order. -/
def readWords : (i count : Nat) → State → List Word × State
  | _, 0, s => ([], s)
  | i, count + 1, s =>
    let (w, s1) := readWord i s
    let (ws, s2) := readWords (i + 1) count s1
    (w :: ws, s2)

/-! ### Completing a request (spec/30_encoding.md R84, R85) -/

/-- Complete a request: write `RESP` and pulse `RESP_DONE`. -/
def complete (resp : Resp) (s : State) : State := { s with resp := resp, respDone := true }

/-- Complete with a word result: `val`, and `view` 0. -/
def completeVal (v : Word) (s : State) : State := complete { s.resp with val := v, view := false } s

/-- Complete with a boolean result: `flag`, and `view` 0. -/
def completeFlag (b : Bool) (s : State) : State := complete { s.resp with flag := b, view := false } s

/-- Complete with a vector result: `vec`, and `view` 0. -/
def completeVec (ws : List Word) (s : State) : State := complete { s.resp with vec := ws, view := false } s

/-- Complete with the view of the buffer as the result (spec/20_memory.md R54). -/
def completeView (s : State) : State := complete { s.resp with view := true } s

/-! ### Taking a refusal (spec/60_exceptions.md R221) -/

/-- `raise Refused(code)`: set the sticky flag, record the code if it is the first, complete the request; no
other effect. There is no trap entry and no return (R231, R232). -/
def refuse (code : RefuseCode) (s : State) : State :=
  { s with
    refuseCode := if s.refused then s.refuseCode else code
    refused := true
    respDone := true }

/-! ### The chip-select controller and the sequencer (spec/41_transaction_executor.md R124 to R127) -/

/-- `CS(lvl)` on entry to SETUP and on the exit from SHIFT. -/
def driveCs (lvl : Bool) (s : State) : State := { s with csN := lvl }

/-- Assert chip-select and begin a transaction with command word `c` (R125, its first two lines). -/
def beginTransaction (c : Word) (s : State) : State :=
  { driveCs false s with curCmd := c, phase := .setup, respDone := false }

/-- A request with a bus operation is taken (R127, first row). -/
def takeBusRequest (op : Op) (c : Word) (s : State) : State :=
  beginTransaction c { s with curOp := some op, txn := .one }

/-- SETUP: the guard delay has completed (R127). -/
def endSetup (s : State) : State := { s with phase := .shift, k := 0, respDone := false }

/-- A device whose pending word is the n-th free value and answers no known command. -/
def drawnDevice (n : Nat) : Device := ⟨Config.draw16 n, none⟩

/-- Every device of a chain holds a free value: after power-up (R144), after a cut transaction
(spec/93_implementation_defined.md U5), and where the chain's length is not N (U6). `n` is the number of the
first free value. -/
def drawnChain : (n : Nat) → List Device → List Device
  | _, [] => []
  | n, _ :: rest => drawnDevice n :: drawnChain (n + 1) rest

/-- The chain takes fresh free values. -/
def drawChain (s : State) : State :=
  { s with chain := drawnChain s.draws s.chain, draws := s.draws + s.chain.length }

/-- The responses the devices from position `k` on latch for command `c`, with a fresh choice per position, the
first numbered `ch` (R143). -/
def latched (c : Word) : (k ch : Nat) → List Device → List Device
  | _, _, [] => []
  | k, ch, _ :: rest => ⟨Config.sensorResp k c ch, some c⟩ :: latched c (k + 1) (ch + 1) rest

/-- The latch at the chip-select rise (R143). Where the chain's length is not N, what the devices hold is not
stated (U6): free values. -/
def latchChain (c : Word) (s : State) : State :=
  if s.chain.length = s.n then
    { s with chain := latched c 0 s.draws s.chain, draws := s.draws + s.chain.length }
  else drawChain s

/-- `rx <- XCHG(tx)` at position `k`: the chain returns `PEND[k]` (R121, R142), and a free value where the
chain's length is not N (U6). -/
def exchangeWord (k : Nat) (s : State) : Word × State :=
  match decide (s.chain.length = s.n), s.chain[k]? with
  | true, some d => (d.pend, s)
  | _, _ => (Config.draw16 s.draws, useDraw s)

/-- The end of the chip-select window after the N-th exchange: deassert, latch, and the ghosts (R125, R127). -/
def endWindow (c : Word) (s : State) : State :=
  { latchChain c (driveCs true s) with
    k := s.n, written := true, phase := .recover, lastCmd := some c, respDone := false }

/-- One word exchange of a transaction with command word `c`: the two SHIFT rows of R127. R127 has no row for
`K >= N`. -/
def exchange (c : Word) (s : State) : Result :=
  if s.k < s.n then
    let (rx, s1) := exchangeWord s.k s
    let s2 := writeWord s.k rx s1
    if s.k + 1 < s.n then .next { s2 with k := s.k + 1, respDone := false }
    else .next (endWindow c s2)
  else .fault .noTransition

/-- The request in progress runs a second transaction (spec/42_read_modes.md R161). -/
def hasSecond (s : State) : Bool :=
  s.txn == .one && (s.curOp == some .read || s.curOp == some .readAngle)

/-- RECOVER: the guard delay has completed. A further transaction begins with NOP, or the request completes
with the view, or, after reset, nothing more happens (R127, R161). -/
def endRecover (s : State) : State :=
  if hasSecond s then beginTransaction s.params.rom.nop { s with txn := .two }
  else
    match s.curOp with
    | some _ => completeView { s with phase := .idle }
    | none => { s with phase := .idle, respDone := false }

/-! ### Reset and power-up -/

/-- The fields that every reset gives the same value, whatever N is (R39). -/
def clearBlock (s : State) : State :=
  { s with
    rbuf := [], freq := Config.freqDefault, csN := true, k := 0, txn := .one, curCmd := 0x0000#16,
    curOp := none, resp := Resp.zero, respDone := false, written := false, lastCmd := none }

/-- A chip-select window is open: `CS_n = 0` (R29). -/
def windowOpen (s : State) : Bool := s.phase == .setup || s.phase == .shift

/-- A reset of the block with construction parameter `n` (spec/70_reset_and_hazards.md R250,
spec/60_exceptions.md R223, R230). The chain keeps its state (R254) but where the reset cuts a transaction
(U5). Log entries 11 and 12. -/
def resetBlock (n : Nat) (s : State) : State :=
  let s1 := clearBlock (if windowOpen s then drawChain s else s)
  if 1 ≤ n ∧ n ≤ Config.nMax then
    { s1 with cfgN := BitVec.ofNat 8 n, phase := .recover, refused := false, refuseCode := .none }
  else
    { s1 with cfgN := 0#8, phase := .idle, refused := true, refuseCode := .cfgN }

/-- The sensors power up (R144). -/
def powerUpChain (s : State) : State := { drawChain s with respDone := false }

/-! ### The request port (spec/30_encoding.md R84) -/

/-- `REQ_READY`: the block takes a request only in IDLE. -/
def reqReady (s : State) : Bool := s.phase == .idle

/-- What stands on the request port of an idle block. After an invalid construction every request is refused
with `CFG_N` (spec/60_exceptions.md R223, R224). -/
def portRequest (s : State) : Option RequestDecode :=
  match s.host with
  | [] => none
  | r :: _ =>
    if s.refuseCode = .cfgN then some (.reject .cfgN) else some (decodeRequest r.word r.vec.length)

/-- The block has taken the request: it leaves the port, and nothing of it is kept
(spec/10_state.md R38). -/
def popRequest (s : State) : State := { s with host := s.host.tail }

/-- The request leaves the port once its step has answered. -/
def retire : Result → Result
  | .next s => .next (popRequest s)
  | .fault f => .fault f
  | .refused r => .refused r

/-- The host issues a request: it waits behind those it has issued before (spec/20_memory.md R59). -/
def issueRequest (r : Request) (s : State) : State := { s with host := s.host ++ [r], respDone := false }

/-- The turn that comes next is used up. -/
def nextTurn (s : State) : State := { s with turns := s.turns.tail }

/-- An idle block with no request stays as it is; a `RESP_DONE` pulse ends. -/
def idleStep (s : State) : State := { s with respDone := false }

/-- The command word in the sequencer's hands, as a named command of the ROM. -/
def currentCommand (s : State) : Option Cmd := decodeCommand s.params.rom s.curCmd

/-! ### Status (spec/30_encoding.md R86) -/

/-- `BUSY` (spec/10_state.md R31). -/
def busy (s : State) : Bool := s.phase != .idle

/-- The status outputs. -/
structure Status where
  stBusy    : Bool
  stRefused : Bool
  stCode    : BitVec 3
  stN       : BitVec 8
  stFreq    : BitVec 32
  deriving DecidableEq, Repr

/-- `ST_BUSY`, `ST_REFUSED`, `ST_CODE`, `ST_N`, `ST_FREQ` (R86). -/
def statusOf (s : State) : Status :=
  ⟨busy s, s.refused, refuseCodeBits s.refuseCode, s.cfgN, s.freq⟩

/-- `BUSCFG` as the transport reads it: hard-wired (spec/10_state.md R28). -/
def busCfg (_ : State) : BusCfg := Config.busCfg

end Sys2Proof.Machine
end

