-- ==== Sys2Proof/Machine/Commands.lean ====
section
/-! DEFINITION. The five command words on the bus (spec/40_command_encoder.md R103). A command word's effect is
one full-duplex exchange that carries it: the word at chain position K comes back into `RBUF[K]`, and with the
N-th exchange chip-select rises and every device latches its response to the command
(spec/41_transaction_executor.md R127, R142, R143). What a device answers is the oracle (R106, R140). Log
entry 14. -/

namespace Sys2Proof.Machine

/-- No-op. -/
def execCmdNop (s : State) : Result := exchange s.params.rom.nop s
/-- Clear-Error; what the sensor clears is not stated (R106). -/
def execCmdClrerr (s : State) : Result := exchange s.params.rom.clrerr s
/-- Read-Diagnostics. -/
def execCmdDiag (s : State) : Result := exchange s.params.rom.diag s
/-- Read-Magnitude. -/
def execCmdMag (s : State) : Result := exchange s.params.rom.mag s
/-- Read-Angle. -/
def execCmdAngle (s : State) : Result := exchange s.params.rom.angle s

end Sys2Proof.Machine
end

