-- ==== Sys2Proof/Machine/Executor.lean ====
section
/-! DEFINITION. The Transaction Executor's operations: EXEC, RDBUF and SETFREQ
(spec/41_transaction_executor.md). -/

namespace Sys2Proof.Machine

/-- A bus request with a command selector: its first step takes the request with the ROM's word (R105, R127);
the rest of it is the sequencer's (R125). A selector that names no command is refused (R90). -/
def takeSelected (op : Op) (csel : BitVec 3) (s : State) : Result :=
  match enc s.params.rom csel with
  | none => .next (refuse .rsvdCsel s)
  | some c => .next (takeBusRequest op c s)

/-- EXEC: one transaction with the selected command (R126). The step of the request is its taking; the
transaction follows step by step (R127, log entry 1). -/
def execExec (csel : BitVec 3) (s : State) : Result := takeSelected .exec csel s

/-- RDBUF: one word of the view, a draw if it was never written (R131, R132); `IDX_RANGE` for an index of N or
more (spec/30_encoding.md R93). -/
def execRdbuf (idx : BitVec 8) (s : State) : Result :=
  if s.n ≤ idx.toNat then .next (refuse .idxRange s)
  else
    let (w, s1) := readWord idx.toNat s
    .next (completeVal w s1)

/-- SETFREQ: the requested bus clock frequency (R133); `FREQ_RANGE` for 0 and above 10 MHz
(spec/30_encoding.md R93). -/
def execSetfreq (hz : BitVec 32) (s : State) : Result :=
  if hz.toNat = 0 ∨ Config.freqMax < hz.toNat then .next (refuse .freqRange s)
  else .next (complete { s.resp with view := false } { s with freq := hz })

end Sys2Proof.Machine
end

