-- ==== Sys2Proof/Machine/ReadModes.lean ====
section
/-! DEFINITION. The read modes (spec/42_read_modes.md). Each is a request with a bus operation; its first step
takes it, and the sequencer runs its one or two transactions (R161, log entry 1). -/

namespace Sys2Proof.Machine

/-- READ: the selected command, then NOP (R162). -/
def execRead (csel : BitVec 3) (s : State) : Result := takeSelected .read csel s

/-- READ_SEQ: one transaction with the selected command (R165). -/
def execReadSeq (csel : BitVec 3) (s : State) : Result := takeSelected .readSeq csel s

/-- READ_ANGLE: READ with CSEL 4 (R168). -/
def execReadAngle (s : State) : Result := takeSelected .readAngle 4#3 s

/-- READ_ANGLE_SEQ: READ_SEQ with CSEL 4 (R170). -/
def execReadAngleSeq (s : State) : Result := takeSelected .readAngleSeq 4#3 s

end Sys2Proof.Machine
end

