-- ==== Sys2Proof/Machine/Utilities.lean ====
section
/-! DEFINITION. The parity validator and the response word unpacker (spec/43_result_utilities.md). Each
completes in the step that takes it (R181). -/

namespace Sys2Proof.Machine

/-- MASK: the payload of one word (R183). -/
def execMask (w : Word) (s : State) : Result := .next (completeVal (payload w) s)

/-- MASKB: the first `n` words of the host vector masked (R186); `LEN_RANGE` if `n > L`
(spec/30_encoding.md R93). -/
def execMaskb (n : BitVec 8) (s : State) : Result :=
  if (portVec s).length < n.toNat then .next (refuse .lenRange s)
  else .next (completeVec (maskFirst n.toNat (portVec s)) s)

/-- PARITY: the 15-fold parity check (R190). -/
def execParity (w : Word) (s : State) : Result := .next (completeFlag (parityOk w) s)

/-- ERR_IDX: the error flag of one stored word, false for an index of N or more (R196); a draw where no
transaction has written (R197). -/
def execErrIdx (idx : BitVec 8) (s : State) : Result :=
  if idx.toNat < s.n then
    let (w, s1) := readWord idx.toNat s
    .next (completeFlag (errorFlag w) s1)
  else .next (completeFlag false s)

/-- ERR_ANY: whether any of the N stored words has its error flag set (R198). -/
def execErrAny (s : State) : Result :=
  let (ws, s1) := readWords 0 s.n s
  .next (completeFlag (anyError ws) s1)

/-- DEG: the payload in hundredths of a degree (R200). -/
def execDeg (w : Word) (s : State) : Result := .next (completeVal (degrees w) s)

/-- RAD: the payload in units of 1/10000 radian (R204). -/
def execRad (w : Word) (s : State) : Result := .next (completeVal (radians w) s)

end Sys2Proof.Machine
end

