-- ==== Sys2Proof/Machine/Dispatch.lean ====
section
/-! DEFINITION. One arm per instruction. -/

namespace Sys2Proof.Machine

def exec (i : Instr) (s : State) : Host.Outcome State Fault Refusal :=
  match i with
  | .exec csel => Sys2Proof.Machine.execExec csel s
  | .read csel => Sys2Proof.Machine.execRead csel s
  | .readSeq csel => Sys2Proof.Machine.execReadSeq csel s
  | .readAngle => Sys2Proof.Machine.execReadAngle s
  | .readAngleSeq => Sys2Proof.Machine.execReadAngleSeq s
  | .rdbuf idx => Sys2Proof.Machine.execRdbuf idx s
  | .setfreq hz => Sys2Proof.Machine.execSetfreq hz s
  | .mask w => Sys2Proof.Machine.execMask w s
  | .maskb n => Sys2Proof.Machine.execMaskb n s
  | .parity w => Sys2Proof.Machine.execParity w s
  | .errIdx idx => Sys2Proof.Machine.execErrIdx idx s
  | .errAny => Sys2Proof.Machine.execErrAny s
  | .deg w => Sys2Proof.Machine.execDeg w s
  | .rad w => Sys2Proof.Machine.execRad w s
  | .cmdNop => Sys2Proof.Machine.execCmdNop s
  | .cmdClrerr => Sys2Proof.Machine.execCmdClrerr s
  | .cmdDiag => Sys2Proof.Machine.execCmdDiag s
  | .cmdMag => Sys2Proof.Machine.execCmdMag s
  | .cmdAngle => Sys2Proof.Machine.execCmdAngle s

end Sys2Proof.Machine
end

