-- ==== Sys2Proof/Machine/Sequencer.lean ====
section
/-! DEFINITION. The steps of the agents: the sequencer's rows (spec/41_transaction_executor.md R127,
spec/42_read_modes.md R161), and the turns of the host, of a reset and of the sensors
(spec/60_exceptions.md R230, R236). -/

namespace Sys2Proof.Machine

/-- IDLE: take the request on the port, refuse it, or wait for one. -/
def stepIdle (s : State) : Result :=
  match portRequest s with
  | none => .next (idleStep s)
  | some (.accept i) => retire (exec i s)
  | some (.reject code) => retire (.next (refuse code s))

/-- SHIFT: run the command word in `CUR_CMD`. A word outside the ROM, which no request can put there
(spec/30_encoding.md R90), is exchanged like any other (spec/40_command_encoder.md R107). Log entry 26. -/
def stepShift (s : State) : Result :=
  match currentCommand s with
  | some c => exec (cmdInstr c) s
  | none => exchange s.curCmd s

/-- The block's step: one row of the sequencer's tables. -/
def blockStep (s : State) : Result :=
  match s.phase with
  | .idle => stepIdle s
  | .setup => .next (endSetup s)
  | .shift => stepShift s
  | .recover => .next (endRecover s)

/-- One agent's step. -/
def takeTurn (turn : Turn) (s : State) : Result :=
  match turn with
  | .block => blockStep s
  | .issue r => .next (issueRequest r s)
  | .reset n => .next (resetBlock n s)
  | .powerUp => .next (powerUpChain s)

/-- `s` with an instruction placed where the next step fetches it: a request word on the request port of an
idle block, a command word in `CUR_CMD` at the first exchange of an open window. Only the block moves.
Log entry 23. -/
def placeWord (s : State) (nbits w : Nat) : State :=
  match tableEncoding nbits w with
  | .request r => { s with turns := [], phase := .idle, csN := true, host := ⟨r, []⟩ :: s.host }
  | .command c => { s with turns := [], phase := .shift, csN := false, k := 0, curCmd := c }

end Sys2Proof.Machine
end

