-- ==== Sys2Proof/Machine/Step.lean ====
section
/-! DEFINITION. One step of the machine, and the placing of one instruction. -/

namespace Sys2Proof.Machine

/-- One step: that of the agent whose turn it is, the block's where no turn is left. -/
def step (s : State) : Host.Outcome State Fault Refusal :=
  takeTurn (s.turns.head?.getD .block) (nextTurn s)

/-- `s` with an instruction placed where the next step fetches and runs it. Log entry 23. -/
def State.withFetchWord (s : State) (nbits w : Nat) : State := placeWord s nbits w

end Sys2Proof.Machine
end

