-- ==== Sys2Proof/Machine/Assembler.lean ====
section
/-! DEFINITION. The assembler syntax of requests (spec/30_encoding.md R94): one request a line, `;` begins a
comment, operands decimal or `0x` hexadecimal. What R94 leaves open (white space, letter case, an operand too
wide for its field) is log entry 28. -/

namespace Sys2Proof.Machine

/-- The pieces of a line. -/
inductive Token where
  | word (cs : List Char)
  | comma | lbrack | rbrack
  deriving DecidableEq, Repr

/-- Close the word that is being read, if there is one; its letters are held in reverse. -/
def flushWord (cur : List Char) (rest : List Token) : List Token :=
  if cur.isEmpty then rest else .word cur.reverse :: rest

/-- The tokens of a line; a comment ends it. -/
def tokens (cur : List Char) : List Char → List Token
  | [] => flushWord cur []
  | c :: cs =>
    if c = ';' then flushWord cur []
    else if c = ' ' ∨ c = '\t' then flushWord cur (tokens [] cs)
    else if c = ',' then flushWord cur (.comma :: tokens [] cs)
    else if c = '[' then flushWord cur (.lbrack :: tokens [] cs)
    else if c = ']' then flushWord cur (.rbrack :: tokens [] cs)
    else tokens (c :: cur) cs

/-- The value of a digit in base 16. -/
def digitValue (c : Char) : Option Nat :=
  let n := c.toNat
  if 48 ≤ n ∧ n ≤ 57 then some (n - 48)
  else if 65 ≤ n ∧ n ≤ 70 then some (n - 55)
  else if 97 ≤ n ∧ n ≤ 102 then some (n - 87)
  else none

/-- The value of a row of digits in a base, `acc` being the value read so far. -/
def digitsValue (base acc : Nat) : List Char → Option Nat
  | [] => some acc
  | c :: cs =>
    match digitValue c with
    | some d => if d < base then digitsValue base (acc * base + d) cs else none
    | none => none

/-- A number: decimal, or hexadecimal after `0x`. -/
def number : List Char → Option Nat
  | [] => none
  | ['0', 'x'] => none
  | '0' :: 'x' :: cs => digitsValue 16 0 cs
  | cs => digitsValue 10 0 cs

/-- An operand for a field of `width` bits; a number that does not fit is no operand. -/
def operand (width : Nat) (cs : List Char) : Option (BitVec width) :=
  match number cs with
  | some n => if n < 2 ^ width then some (BitVec.ofNat width n) else none
  | none => none

/-- The command names (R94) with their `CSEL` (R82). -/
def commandNames : List (List Char × BitVec 3) :=
  [("nop".toList, 0#3), ("clrerr".toList, 1#3), ("diag".toList, 2#3), ("mag".toList, 3#3),
   ("angle".toList, 4#3)]

/-- The selector of a command name. -/
def commandName (cs : List Char) : Option (BitVec 3) :=
  (commandNames.find? (fun e => e.1 == cs)).map Prod.snd

/-- The requests written as a mnemonic alone. -/
def assembleBare (m : List Char) : Option Instr :=
  if m = "read_angle".toList then some .readAngle
  else if m = "read_angle_seq".toList then some .readAngleSeq
  else none

/-- The requests written as a mnemonic and one operand. -/
def assembleUnary (m a : List Char) : Option Instr :=
  if m = "exec".toList then (commandName a).map Instr.exec
  else if m = "read".toList then (commandName a).map Instr.read
  else if m = "read_seq".toList then (commandName a).map Instr.readSeq
  else if m = "rdbuf".toList then (operand 8 a).map Instr.rdbuf
  else if m = "setfreq".toList then (operand 32 a).map Instr.setfreq
  else if m = "mask".toList then (operand 16 a).map Instr.mask
  else if m = "parity".toList then (operand 16 a).map Instr.parity
  else if m = "err".toList then
    if a = "all".toList then some .errAny else (operand 8 a).map Instr.errIdx
  else if m = "deg".toList then (operand 16 a).map Instr.deg
  else if m = "rad".toList then (operand 16 a).map Instr.rad
  else none

/-- The words of MASKB's list after the first, up to the closing bracket. -/
def vectorTail : List Token → Option (List Word)
  | [.rbrack] => some []
  | .comma :: .word a :: rest =>
    match operand 16 a, vectorTail rest with
    | some w, some ws => some (w :: ws)
    | _, _ => none
  | _ => none

/-- MASKB's list after its opening bracket. -/
def vector : List Token → Option (List Word)
  | [.rbrack] => some []
  | .word a :: rest =>
    match operand 16 a, vectorTail rest with
    | some w, some ws => some (w :: ws)
    | _, _ => none
  | _ => none

/-- The instruction a line's tokens write, with its vector. -/
def assembleTokens : List Token → Option (Instr × List Word)
  | [.word m] => (assembleBare m).map (fun i => (i, []))
  | [.word m, .word a] => (assembleUnary m a).map (fun i => (i, []))
  | .word m :: .word a :: .comma :: .lbrack :: rest =>
    if m = "maskb".toList then
      match operand 8 a, vector rest with
      | some n, some ws => if ws.length ≤ Config.lMax then some (.maskb n, ws) else none
      | _, _ => none
    else none
  | _ => none

/-- The request a line writes (R94): the encoding of its instruction, with its vector. -/
def assemble (line : String) : Option Request :=
  match assembleTokens (tokens [] line.toList) with
  | some (i, ws) =>
    match encode i with
    | .request r => some ⟨r, ws⟩
    | .command _ => none
  | none => none

end Sys2Proof.Machine
end

