-- ==== Sys2Proof/Machine/Timing.lean ====
section
/-! DEFINITION. The lower bounds on the duration of a request (spec/70_reset_and_hazards.md R265), in whole
nanoseconds rounded down. They are figures: no rule and no step uses them, since the machine has no time
(spec/41_transaction_executor.md R122). Log entry 27. -/

namespace Sys2Proof.Machine

/-- The nanoseconds `n` exchanges of 16 bits take at least, at an actual clock of `f` Hz. -/
def exchangesMinNs (n f : Nat) : Nat := n * 16 * 1000000000 / f

/-- One transaction: two guard delays and the exchanges. -/
def transactionMinNs (p : Params) (n f : Nat) : Nat := 2 * p.tGuardNs + exchangesMinNs n f

/-- How many transactions a request runs (spec/42_read_modes.md R172). -/
def transactionsOf : Op → Nat
  | .exec => 1
  | .read => 2
  | .readSeq => 1
  | .readAngle => 2
  | .readAngleSeq => 1
  | .rdbuf => 0
  | .setfreq => 0
  | .mask => 0
  | .maskb => 0
  | .parity => 0
  | .errIdx => 0
  | .errAny => 0
  | .deg => 0
  | .rad => 0

/-- A request takes at least its transactions' time; one that uses no bus takes no bus time. -/
def requestMinNs (s : State) (op : Op) (f : Nat) : Nat :=
  transactionsOf op * transactionMinNs s.params s.n f

end Sys2Proof.Machine
end

