-- ==== Sys2Proof/Safety.lean ====
section
/-! DEFINITION. The terms of the claims: clean and final states (spec/60_exceptions.md R221, R242), the
invariant of the machine, and the whole transaction and the whole bus requests as one state change each
(spec/41_transaction_executor.md R125, R126, spec/42_read_modes.md R162, R165). -/

namespace Sys2Proof.Machine

/-! ### Premises on the environment -/

/-- Only the block moves from here on. -/
def Quiet (s : State) : Prop := s.turns = []

/-- It is the block that moves next. -/
def BlockMoves (s : State) : Prop := s.turns = [] ∨ s.turns.head? = some .block

/-- The next step is no reset. -/
def NoReset (s : State) : Prop := ∀ n, s.turns.head? ≠ some (.reset n)

/-- The physical chain has N devices, and there is one at least (spec/70_reset_and_hazards.md R255,
spec/41_transaction_executor.md R130). -/
def ChainFits (s : State) : Prop := s.chain.length = s.n ∧ 1 ≤ s.n

/-- Every cell of a buffer lies at a position below `n` (spec/10_state.md R21). -/
def Buffer.within (n : Nat) (b : Buffer) : Prop := ∀ c ∈ b, c.1 < n

/-- The buffer is in canonical form and within the N positions. -/
def BufferOk (s : State) : Prop := Buffer.wf s.rbuf = true ∧ Buffer.within s.n s.rbuf

/-- An idle block that will decode the request `r` in its own next step. -/
def Offers (r : Request) (s : State) : Prop :=
  s.phase = .idle ∧ s.refuseCode ≠ .cfgN ∧ s.host.head? = some r

/-! ### Runs -/

/-- `k` steps, stopping at the first fault or refusal: the host's run of the machine, on its own state type. -/
def run : (k : Nat) → State → Result
  | 0, s => .next s
  | k + 1, s =>
    match step s with
    | .next t => run k t
    | .fault f => .fault f
    | .refused r => .refused r

/-! ### Clean and final states -/

/-- A run is clean while no request was refused (spec/60_exceptions.md R221). -/
def Clean (s : State) : Prop := s.refused = false

/-- The host has no further request: none waits, and none is still to be issued. -/
def NoFurtherRequest (s : State) : Prop := s.host = [] ∧ ∀ r, Turn.issue r ∉ s.turns

/-- The end of a run: no further request, and the block idle (spec/60_exceptions.md R242). The rule's third
condition goes with the second: a `DELAY` is outstanding in SETUP and RECOVER only, an `XCHG` in SHIFT only
(spec/41_transaction_executor.md R127). -/
def Final (s : State) : Prop := NoFurtherRequest s ∧ s.phase = .idle

/-! ### The invariant -/

/-- The words of the command ROM. -/
def romWords (rom : Rom) : List Word := cmdTable.map (romWord rom)

/-- What every step keeps, and the state after reset has. -/
structure Inv (s : State) : Prop where
  /-- The buffer is canonical and holds positions below N only (spec/10_state.md R21). -/
  buffer : BufferOk s
  /-- After a completed transaction every word is written (R24). -/
  full : s.written = true → ∀ i, i < s.n → (Buffer.get i s.rbuf).isSome = true
  /-- In an open window the words of the exchanges done so far are written (R22, R125). -/
  progress : s.phase = .shift → ∀ i, i < s.k → (Buffer.get i s.rbuf).isSome = true
  /-- `FREQ` is a legal frequency (R27). -/
  freq : 1 ≤ s.freq.toNat ∧ s.freq.toNat ≤ Config.freqMax
  /-- `CS_n` is 0 exactly in SETUP and SHIFT (R29). -/
  chipSelect : s.csN = false ↔ s.phase = .setup ∨ s.phase = .shift
  /-- `K` is in 0..N, and below N while an exchange is due (R30). -/
  counter : s.k ≤ s.n ∧ (s.phase = .shift → s.k < s.n)
  /-- N is legal but after an invalid construction (R26). -/
  size : s.refuseCode ≠ .cfgN → 1 ≤ s.n
  /-- `REFUSED` is set exactly when a code is recorded (R32). -/
  status : s.refused = true ↔ s.refuseCode ≠ .none
  /-- After an invalid construction the block never leaves IDLE (spec/60_exceptions.md R223). -/
  invalid : s.refuseCode = .cfgN → s.phase = .idle
  /-- Only a ROM word is ever on the bus (spec/30_encoding.md R90). -/
  onBus : s.phase = .setup ∨ s.phase = .shift → s.curCmd ∈ romWords s.params.rom
  /-- A transaction belongs to a bus request, and only READ and READ_ANGLE have a second one (R30). -/
  inRequest : s.phase = .setup ∨ s.phase = .shift → (s.curOp.map transactionsOf).any (1 ≤ ·) = true
  second : s.phase ≠ .idle → s.txn = .two → s.curOp = some .read ∨ s.curOp = some .readAngle
  /-- The vectors fit their ports (spec/30_encoding.md R80). -/
  vectors : s.resp.vec.length ≤ Config.lMax ∧ (∀ r ∈ s.host, r.vec.length ≤ Config.lMax) ∧
    ∀ r, Turn.issue r ∈ s.turns → r.vec.length ≤ Config.lMax
  /-- A device answers the last completed command, or nothing known (R35, R36). -/
  ghost : ∀ c, s.lastCmd = some c → ∀ d ∈ s.chain, d.pendCmd = none ∨ d.pendCmd = some c
  /-- `T_GUARD` is at least 1 microsecond (spec/41_transaction_executor.md R123). -/
  guard : Config.tGuardMinNs ≤ s.params.tGuardNs

/-! ### Whole transactions and requests, as the pseudocode gives them -/

/-- The words a chain shifts out in one transaction, as a buffer from position `i` on. -/
def received : (i : Nat) → List Device → Buffer
  | _, [] => []
  | i, d :: rest => (i, d.pend) :: received (i + 1) rest

/-- `TRANSACTION(c)` as one state change, up to its last line (R125): every position's pending word is in the
buffer, and every position has latched its response to `c` (R141). -/
def transactionEnd (c : Word) (s : State) : State :=
  { s with
    rbuf := received 0 s.chain, csN := true, phase := .recover, k := s.n, curCmd := c, respDone := false,
    written := true, lastCmd := some c, chain := latched c 0 s.draws s.chain,
    draws := s.draws + s.chain.length }

/-- The start of a bus request: it leaves the port and is the current operation (R127). -/
def requestStart (op : Op) (s : State) : State := popRequest { s with curOp := some op, txn := .one }

/-- The end of a bus request: IDLE, with the view as its result (R126). -/
def requestEnd (s : State) : State := completeView { s with phase := .idle }

/-- EXEC and the pipelined reads: one transaction with `c` (R126, R165). -/
def oneTransaction (op : Op) (c : Word) (s : State) : State :=
  requestEnd (transactionEnd c (requestStart op s))

/-- The immediate reads: a transaction with `c`, then one with NOP (R162). -/
def twoTransactions (op : Op) (c : Word) (s : State) : State :=
  requestEnd (transactionEnd s.params.rom.nop { transactionEnd c (requestStart op s) with txn := .two })

end Sys2Proof.Machine
end

