-- ==== Sys2Proof/Certificates/Slice0/Obligations.lean ====
section
/-! DEFINITION. The statements about the model. Each docstring names the rules of spec/ it formalises; a free
value of the model (Config.draw16, Config.sensorResp) may be any word, and a statement that names one holds
whatever it is. -/

open Sys2Proof Sys2Proof.Machine

/-! ### Encodings -/

/-- R80, R81, R87, R103: decoding the words of a well-formed instruction gives it back, every operand at every
value its field admits; a vector comes only with MASKB.
The command words are those of the default ROM, PRESUMED, log entry 4. -/
def Obligations.DecodeEncodeRoundTrip : Prop :=
  ∀ (i : Instr) (len : Nat), i.wellFormed = true → (len = 0 ∨ ∃ n, i = .maskb n) →
    decode (encode i) len = .instr i

/-- R81, R91: a request word that is accepted is the encoding of its instruction, which is well-formed, and
only MASKB comes with a vector. -/
def Obligations.AcceptedRequestIsItsEncoding : Prop :=
  ∀ (w : ReqWord) (len : Nat) (i : Instr), decodeRequest w len = .accept i →
    encode i = .request w ∧ i.wellFormed = true ∧ (len = 0 ∨ ∃ n, i = .maskb n)

/-- Request words of spec/95_test_vectors.md and a command word of R103 decode to what they stand for, and lines of
the assembler syntax of R94 write the request words of that file.
The word of CMD_MAG is PRESUMED, log entry 4; blanks between the words of a line are log entry 28. -/
def Obligations.SpecWordsDecodeAndAssemble : Prop :=
  decode (.request 0x0000000000000030#64) 0 = .instr (.exec 3#3) ∧
  decode (.request 0x0098968000000006#64) 0 = .instr (.setfreq 10000000#32) ∧
  decode (.request 0x0000000000000308#64) 3 = .instr (.maskb 3#8) ∧
  decode (.request 0x000000008ABC000D#64) 0 = .instr (.rad 0x8ABC#16) ∧
  decode (.request 0x00000000000000D0#64) 0 = .reject .rsvdField ∧
  decode (.command 0x7FFE#16) 0 = .instr .cmdMag ∧
  assemble "exec   angle   ; one transaction" = some ⟨0x0000000000000040#64, []⟩ ∧
  assemble "setfreq 10000000" = some ⟨0x0098968000000006#64, []⟩ ∧
  assemble "maskb 1, [0xFFFF, 0xFFFF]" = some ⟨0x0000000000000108#64, [0xFFFF#16, 0xFFFF#16]⟩ ∧
  assemble "err all" = some ⟨0x000000000000000B#64, []⟩ ∧ assemble "exec 0xFFFF" = none

/-- R104: a ROM of any five words meets the constraint on `CMDVAL`: every word is base bits and flags. -/
def Obligations.EveryWordIsBaseAndFlags : Prop :=
  ∀ w : Word, ∃ (base : BitVec 14) (read parity : Bool), w = commandWord base read parity ∧
    w.extractLsb' 0 14 = base ∧ w.getLsbD 14 = read ∧ w.getLsbD 15 = parity

/-! ### Taking requests -/

/-- R84, R93: an idle block whose turn it is takes the request on its port. The step is `exec` of the decoded
instruction at the same state, less the turn used up, and then the request leaves the port.
One step takes one request: DEDUCED, log entry 1. -/
def Obligations.StepRunsRequest : Prop :=
  ∀ (s : State) (r : Request) (i : Instr), BlockMoves s → Offers r s →
    decodeRequest r.word r.vec.length = .accept i → step s = retire (exec i { s with turns := s.turns.tail })

/-- R107, R128: in SHIFT the step is `exec` of the command word in `CUR_CMD`; a word outside the ROM is
exchanged like any other.
That a command word's meaning is its exchange is DEDUCED, log entry 14. -/
def Obligations.StepRunsCommandWord : Prop :=
  ∀ s : State, BlockMoves s → s.phase = .shift →
    (∀ c, decodeCommand s.params.rom s.curCmd = some c →
      romWord s.params.rom c = s.curCmd ∧ step s = exec (cmdInstr c) { s with turns := s.turns.tail }) ∧
    (s.curCmd ∉ romWords s.params.rom → step s = exchange s.curCmd { s with turns := s.turns.tail })

/-- R88: a request with `OP` 0xE or 0xF is refused with `RSVD_OP`, and nothing else happens. -/
def Obligations.ReservedOpcodeRefused : Prop :=
  ∀ (s : State) (r : Request), BlockMoves s → Offers r s → (fieldOp r.word = 0xE#4 ∨ fieldOp r.word = 0xF#4) →
    step s = .next { s with
      refused := true, refuseCode := if s.refused then s.refuseCode else .rsvdOp, respDone := true
      host := s.host.tail, turns := s.turns.tail }

/-- R89: a request with `RSV` set, an unused field that is not zero, or a vector for an operation other than
MASKB is refused with `RSVD_FIELD`. -/
def Obligations.UnusedFieldRefused : Prop :=
  ∀ (s : State) (r : Request) (op : Op), BlockMoves s → Offers r s → opOfCode (fieldOp r.word) = some op →
    (fieldRsv r.word = 1#1 ∨
      (op ∉ [Op.exec, .read, .readSeq] ∧ fieldCsel r.word ≠ 0#3) ∨
      (op ∉ [Op.rdbuf, .maskb, .errIdx] ∧ fieldIdx r.word ≠ 0#8) ∨
      (op ∉ [Op.mask, .parity, .deg, .rad] ∧ fieldWord r.word ≠ 0#16) ∨
      (op ≠ .setfreq ∧ fieldHz r.word ≠ 0#32) ∨
      (op ≠ .maskb ∧ r.vec ≠ [])) →
    step s = .next { s with
      refused := true, refuseCode := if s.refused then s.refuseCode else .rsvdField, respDone := true
      host := s.host.tail, turns := s.turns.tail }

/-- R90, R224: EXEC, READ and READ_SEQ with `CSEL` 5 to 7 and no stray field are refused with `RSVD_CSEL`. -/
def Obligations.ReservedSelectorRefused : Prop :=
  ∀ (s : State) (r : Request) (op : Op), BlockMoves s → Offers r s → opOfCode (fieldOp r.word) = some op →
    op ∈ [Op.exec, .read, .readSeq] → 5 ≤ (fieldCsel r.word).toNat →
    fieldRsv r.word = 0#1 → fieldIdx r.word = 0#8 → fieldWord r.word = 0#16 → fieldHz r.word = 0#32 →
    r.vec = [] →
    step s = .next { s with
      refused := true, refuseCode := if s.refused then s.refuseCode else .rsvdCsel, respDone := true
      host := s.host.tail, turns := s.turns.tail }

/-- R221: a request that fails a check of the decoder has no effect but the sticky flag, the first code and the
completion pulse; the port is freed and PHASE stays IDLE. -/
def Obligations.RefusalChangesOnlyStatus : Prop :=
  ∀ (s : State) (r : Request) (code : RefuseCode), BlockMoves s → Offers r s →
    decodeRequest r.word r.vec.length = .reject code →
    step s = .next { s with
      refused := true, refuseCode := if s.refused then s.refuseCode else code, respDone := true
      host := s.host.tail, turns := s.turns.tail }

/-- R105: in the meaning itself, a selector 5 to 7 is refused with `RSVD_CSEL` (the decoder catches it before). -/
def Obligations.EncoderRefusesReservedSelector : Prop :=
  ∀ (s : State) (csel : BitVec 3), 5 ≤ csel.toNat →
    exec (.exec csel) s = .next (refuse .rsvdCsel s) ∧ exec (.read csel) s = .next (refuse .rsvdCsel s) ∧
    exec (.readSeq csel) s = .next (refuse .rsvdCsel s)

/-- R223, R224: after an invalid construction every request is refused with `CFG_N`, which stays recorded, with no
bus activity. -/
def Obligations.InvalidConstructionRefusesEveryRequest : Prop :=
  ∀ (s : State) (r : Request), BlockMoves s → s.phase = .idle → s.refuseCode = .cfgN → s.host.head? = some r →
    step s = .next { s with
      refused := true, refuseCode := .cfgN, respDone := true, host := s.host.tail, turns := s.turns.tail }

/-- R31, R84: a busy block takes nothing: the host's requests wait, in order, behind them those it issues
meanwhile.
That the waiting requests are a list of the state is the model's choice, log entry 9. The second clause also speaks
of a reset's turn: that waiting requests outlast a reset is no rule of the spec but the model's choice, log entry
10. -/
def Obligations.RequestsWaitWhileBusy : Prop :=
  ∀ s t : State, busy s = true → step s = .next t →
    (∀ r, s.turns.head? = some (.issue r) → t.host = s.host ++ [r]) ∧
    ((∀ r, s.turns.head? ≠ some (.issue r)) → t.host = s.host)

/-- R84, R242: an idle block with no request keeps its whole state but the end of a `RESP_DONE` pulse, and the host may
issue a request at any time, which puts it behind those waiting and changes nothing else but that it too ends a
pulse.
That an idle block has this step, and that issuing is a turn of its own, are the model's choice, log entries 9
and 10; that the pulse ends with the next step, whosever it is, is log entry 16. -/
def Obligations.IdleBlockWaits : Prop :=
  ∀ s : State,
    (BlockMoves s → s.phase = .idle → s.host = [] → step s = .next { s with
      respDone := false, turns := s.turns.tail }) ∧
    (∀ r, s.turns.head? = some (.issue r) → step s = .next { s with
      host := s.host ++ [r], respDone := false, turns := s.turns.tail })

/-! ### Bus requests: the step that takes them -/

/-- R105, R127: EXEC, READ and READ_SEQ with a legal selector are taken with the ROM's word: chip-select is
asserted, PHASE is SETUP, and nothing else changes.
That `exec` of the request is the row that takes it is DEDUCED, log entry 1; `RESP_DONE` low there, log entry 16. -/
def Obligations.SelectedBusRequestsTaken : Prop :=
  ∀ (s : State) (csel : BitVec 3), csel.toNat < 5 → ∃ c : Cmd, cmdTable[csel.toNat]? = some c ∧
    exec (.exec csel) s = .next { s with
      curOp := some .exec, txn := .one, curCmd := romWord s.params.rom c, csN := false, phase := .setup
      respDone := false } ∧
    exec (.read csel) s = .next { s with
      curOp := some .read, txn := .one, curCmd := romWord s.params.rom c, csN := false, phase := .setup
      respDone := false } ∧
    exec (.readSeq csel) s = .next { s with
      curOp := some .readSeq, txn := .one, curCmd := romWord s.params.rom c, csN := false, phase := .setup
      respDone := false }

/-- R168, R170: READ_ANGLE and READ_ANGLE_SEQ are taken as READ and READ_SEQ with `CSEL` 4 are, under their own
opcodes.
DEDUCED as in SelectedBusRequestsTaken, log entries 1 and 16. -/
def Obligations.AngleRequestsTaken : Prop :=
  ∀ s : State,
    exec .readAngle s = .next { s with
      curOp := some .readAngle, txn := .one, curCmd := s.params.rom.angle, csN := false, phase := .setup
      respDone := false } ∧
    exec .readAngleSeq s = .next { s with
      curOp := some .readAngleSeq, txn := .one, curCmd := s.params.rom.angle, csN := false, phase := .setup
      respDone := false }

/-- Frame of EXEC, READ, READ_SEQ, READ_ANGLE and READ_ANGLE_SEQ at the step that takes or refuses them: no word of
the buffer, no result register, and neither FREQ, CFG_N, the ghosts, the chain nor the parameters change. A reserved
selector changes the refusal status only, and every other form leaves the refusal status as it is. -/
def Obligations.FrameBusRequests : Prop :=
  ∀ (i : Instr) (s t : State),
    ((∃ csel, i = .exec csel ∨ i = .read csel ∨ i = .readSeq csel) ∨ i = .readAngle ∨ i = .readAngleSeq) →
    exec i s = .next t →
    (∀ a, Buffer.get a t.rbuf = Buffer.get a s.rbuf) ∧ t.rbuf = s.rbuf ∧ t.cfgN = s.cfgN ∧ t.freq = s.freq ∧
    t.k = s.k ∧ t.resp = s.resp ∧ t.written = s.written ∧ t.lastCmd = s.lastCmd ∧ t.chain = s.chain ∧
    t.host = s.host ∧ t.turns = s.turns ∧ t.params = s.params ∧ t.draws = s.draws ∧
    ((∃ csel, 5 ≤ csel.toNat ∧ (i = .exec csel ∨ i = .read csel ∨ i = .readSeq csel)) →
      t.refused = true ∧ t.refuseCode = (if s.refused then s.refuseCode else .rsvdCsel) ∧ t.csN = s.csN ∧
      t.phase = s.phase ∧ t.txn = s.txn ∧ t.curCmd = s.curCmd ∧ t.curOp = s.curOp) ∧
    ((∀ csel, 5 ≤ csel.toNat → i ≠ .exec csel ∧ i ≠ .read csel ∧ i ≠ .readSeq csel) →
      t.refused = s.refused ∧ t.refuseCode = s.refuseCode)

/-! ### Reading the buffer, and the clock -/

/-- R131: RDBUF of a written word at a legal index returns it in `RESP.val`. -/
def Obligations.RdbufReturnsWrittenWord : Prop :=
  ∀ (s : State) (idx : BitVec 8) (w : Word), idx.toNat < s.n → Buffer.get idx.toNat s.rbuf = some w →
    exec (.rdbuf idx) s = .next { s with
      resp := { s.resp with val := w, view := false }, respDone := true }

/-- R132: RDBUF of a word no transaction has written since reset returns a draw, a new one each time. -/
def Obligations.RdbufDrawsUnwrittenWord : Prop :=
  ∀ (s : State) (idx : BitVec 8), idx.toNat < s.n → Buffer.get idx.toNat s.rbuf = none →
    exec (.rdbuf idx) s = .next { s with
      resp := { s.resp with val := Config.draw16 s.draws, view := false }, respDone := true
      draws := s.draws + 1 }

/-- R52, R131: RDBUF with an index of N or more is refused with `IDX_RANGE`. -/
def Obligations.RdbufOutOfRangeRefused : Prop :=
  ∀ (s : State) (idx : BitVec 8), s.n ≤ idx.toNat → exec (.rdbuf idx) s = .next { s with
    refused := true, refuseCode := if s.refused then s.refuseCode else .idxRange, respDone := true }

/-- R133: SETFREQ with 1 to 10 000 000 Hz writes FREQ; with 0 or more than that it is refused with `FREQ_RANGE`. -/
def Obligations.SetfreqWritesOrRefuses : Prop :=
  ∀ (s : State) (hz : BitVec 32),
    (1 ≤ hz.toNat → hz.toNat ≤ 10000000 → exec (.setfreq hz) s = .next { s with
      freq := hz, resp := { s.resp with view := false }, respDone := true }) ∧
    (hz.toNat = 0 ∨ 10000000 < hz.toNat → exec (.setfreq hz) s = .next { s with
      refused := true, refuseCode := if s.refused then s.refuseCode else .freqRange, respDone := true })

/-- Frame of SETFREQ: a legal frequency may change FREQ, `RESP.view` and `RESP_DONE`, an illegal one the refusal
status and `RESP_DONE`, nothing else. -/
def Obligations.FrameSetfreq : Prop :=
  ∀ (hz : BitVec 32) (s t : State), exec (.setfreq hz) s = .next t →
    (∀ a, Buffer.get a t.rbuf = Buffer.get a s.rbuf) ∧ t.rbuf = s.rbuf ∧ t.cfgN = s.cfgN ∧ t.csN = s.csN ∧
    t.phase = s.phase ∧ t.k = s.k ∧ t.txn = s.txn ∧ t.curCmd = s.curCmd ∧ t.curOp = s.curOp ∧
    t.resp.val = s.resp.val ∧ t.resp.flag = s.resp.flag ∧ t.resp.vec = s.resp.vec ∧ t.written = s.written ∧
    t.lastCmd = s.lastCmd ∧ t.chain = s.chain ∧ t.host = s.host ∧ t.turns = s.turns ∧
    t.params = s.params ∧ t.draws = s.draws ∧
    (if hz.toNat = 0 ∨ 10000000 < hz.toNat then
      t.refused = true ∧ t.refuseCode = (if s.refused then s.refuseCode else .freqRange) ∧ t.freq = s.freq ∧
      t.resp = s.resp
    else t.refused = s.refused ∧ t.refuseCode = s.refuseCode)

/-! ### The result utilities -/

/-- R184: MASK returns the low 14 bits; masking twice is masking once, and the result is at most 16383. -/
def Obligations.MaskReturnsPayload : Prop :=
  ∀ (s : State) (w : Word),
    exec (.mask w) s = .next { s with
      resp := { s.resp with val := w &&& 0x3FFF#16, view := false }, respDone := true } ∧
    payload w = w &&& 0x3FFF#16 ∧ payload (payload w) = payload w ∧ (payload w).toNat ≤ 16383

/-- R187: for `n <= L` MASKB completes with a vector of L words, the first `n` masked, the rest untouched. -/
def Obligations.MaskbMasksFirstWords : Prop :=
  ∀ (s : State) (n : BitVec 8), n.toNat ≤ (portVec s).length → ∃ out : List Word,
    exec (.maskb n) s = .next { s with
      resp := { s.resp with vec := out, view := false }, respDone := true } ∧
    out.length = (portVec s).length ∧
    ∀ i w, (portVec s)[i]? = some w → out[i]? = some (if i < n.toNat then payload w else w)

/-- R186: MASKB with a count above the vector's length is refused with `LEN_RANGE`. -/
def Obligations.MaskbTooLongRefused : Prop :=
  ∀ (s : State) (n : BitVec 8), (portVec s).length < n.toNat → exec (.maskb n) s = .next { s with
    refused := true, refuseCode := if s.refused then s.refuseCode else .lenRange, respDone := true }

/-- R190, R191: PARITY returns whether the number of ones over all 16 bits is even; after 15 folds bit 0 is the
exclusive or of the 16 bits. -/
def Obligations.ParityCountsSixteenBits : Prop :=
  ∀ (s : State) (w : Word),
    exec (.parity w) s = .next { s with
      resp := { s.resp with flag := decide (popcount w % 2 = 0), view := false }, respDone := true } ∧
    (folds 15 w).getLsbD 0 = ((List.range 16).map (fun j => w.getLsbD j)).foldl Bool.xor false

/-- R196, R197: ERR_IDX below N returns bit 14 of the stored word, or of a draw where none is stored. -/
def Obligations.ErrIdxReadsErrorFlag : Prop :=
  ∀ (s : State) (idx : BitVec 8), idx.toNat < s.n →
    (∀ w, Buffer.get idx.toNat s.rbuf = some w → exec (.errIdx idx) s = .next { s with
      resp := { s.resp with flag := w.getLsbD 14, view := false }, respDone := true }) ∧
    (Buffer.get idx.toNat s.rbuf = none → exec (.errIdx idx) s = .next { s with
      resp := { s.resp with flag := (Config.draw16 s.draws).getLsbD 14, view := false }, respDone := true
      draws := s.draws + 1 })

/-- R227: an out-of-range index given to ERR_IDX is legal, with result false; it is not a refusal. -/
def Obligations.ErrIdxOutOfRangeIsFalse : Prop :=
  ∀ (s : State) (idx : BitVec 8), s.n ≤ idx.toNat → exec (.errIdx idx) s = .next { s with
    resp := { s.resp with flag := false, view := false }, respDone := true }

/-- R198, R199: where all N words are written, ERR_ANY returns whether some word has bit 14 set; over an empty
sequence it is false. -/
def Obligations.ErrAnyIsSomeErrorFlag : Prop :=
  (∀ s : State, (∀ i, i < s.n → (Buffer.get i s.rbuf).isSome = true) → ∃ b : Bool,
    exec .errAny s = .next { s with resp := { s.resp with flag := b, view := false }, respDone := true } ∧
    (b = true ↔ ∃ i w, i < s.n ∧ Buffer.get i s.rbuf = some w ∧ w.getLsbD 14 = true)) ∧
  anyError [] = false

/-- R197: ERR_ANY completes in every state; each word no transaction has written is a draw of its own, and only
`RESP` and the count of draws change. -/
def Obligations.ErrAnyCompletes : Prop :=
  ∀ s : State, ∃ (b : Bool) (d : Nat), exec .errAny s = .next { s with
    resp := { s.resp with flag := b, view := false }, respDone := true, draws := s.draws + d } ∧
    d = (List.range s.n).countP (fun i => (Buffer.get i s.rbuf).isNone) ∧
    ((∃ i w, i < s.n ∧ Buffer.get i s.rbuf = some w ∧ w.getLsbD 14 = true) → b = true)

/-- R200, R201: DEG returns the payload times 36000 over 16384, rounded down; it ignores bits 15 and 14, is
monotone in the payload, and is at most 35997, its value at 0x3FFF. -/
def Obligations.DegScalesPayload : Prop :=
  (∀ (s : State) (w : Word), ∃ r : Word,
    exec (.deg w) s = .next { s with resp := { s.resp with val := r, view := false }, respDone := true } ∧
    r = degrees w ∧ r.toNat = (payload w).toNat * 36000 / 16384 ∧
    r.toNat = ((payload w).toNat * 36000) >>> 14 ∧ r.toNat ≤ 35997) ∧
  (∀ v w : Word, (payload v).toNat ≤ (payload w).toNat → (degrees v).toNat ≤ (degrees w).toNat) ∧
  (degrees 0x3FFF#16).toNat = 35997 ∧ (degrees 0x2000#16).toNat = 18000 ∧ (degrees 0#16).toNat = 0

/-- R204, R205: RAD returns the payload times 62832 over 16384, rounded down; it is monotone in the payload, and
at most 62828, its value at 0x3FFF. -/
def Obligations.RadScalesPayload : Prop :=
  (∀ (s : State) (w : Word), ∃ r : Word,
    exec (.rad w) s = .next { s with resp := { s.resp with val := r, view := false }, respDone := true } ∧
    r = radians w ∧ r.toNat = (payload w).toNat * 62832 / 16384 ∧ r.toNat ≤ 62828) ∧
  (∀ v w : Word, (payload v).toNat ≤ (payload w).toNat → (radians v).toNat ≤ (radians w).toNat) ∧
  (radians 0x3FFF#16).toNat = 62828 ∧ (radians 0x2000#16).toNat = 31416 ∧ (radians 0#16).toNat = 0

/-- R56, R180, R181: frame of MASK, MASKB, PARITY, DEG, RAD, ERR_IDX, ERR_ANY and RDBUF: they touch nothing of the
block but `RESP`, its pulse and the refusal status (MASKB and RDBUF out of range). The four pure functions use no
free value. -/
def Obligations.FrameUtilities : Prop :=
  ∀ (i : Instr) (s t : State),
    ((∃ w, i = .mask w ∨ i = .parity w ∨ i = .deg w ∨ i = .rad w) ∨
      (∃ b, i = .maskb b ∨ i = .errIdx b ∨ i = .rdbuf b) ∨ i = .errAny) →
    exec i s = .next t →
    (∀ a, Buffer.get a t.rbuf = Buffer.get a s.rbuf) ∧ t.rbuf = s.rbuf ∧ t.cfgN = s.cfgN ∧ t.freq = s.freq ∧
    t.csN = s.csN ∧ t.phase = s.phase ∧ t.k = s.k ∧ t.txn = s.txn ∧ t.curCmd = s.curCmd ∧ t.curOp = s.curOp ∧
    t.written = s.written ∧ t.lastCmd = s.lastCmd ∧ t.chain = s.chain ∧ t.host = s.host ∧ t.turns = s.turns ∧
    t.params = s.params ∧
    (∀ b, i = .maskb b → (portVec s).length < b.toNat → t.refused = true ∧
      t.refuseCode = (if s.refused then s.refuseCode else .lenRange) ∧ t.resp = s.resp) ∧
    (∀ b, i = .rdbuf b → s.n ≤ b.toNat → t.refused = true ∧
      t.refuseCode = (if s.refused then s.refuseCode else .idxRange) ∧ t.resp = s.resp ∧ t.draws = s.draws) ∧
    ((∀ b, (i = .maskb b → b.toNat ≤ (portVec s).length) ∧ (i = .rdbuf b → b.toNat < s.n)) →
      t.refused = s.refused ∧ t.refuseCode = s.refuseCode) ∧
    ((∃ w, i = .mask w ∨ i = .deg w ∨ i = .rad w ∨ ∃ b, i = .rdbuf b) →
      t.resp.flag = s.resp.flag ∧ t.resp.vec = s.resp.vec) ∧
    ((∃ w, i = .parity w ∨ i = .errAny ∨ ∃ b, i = .errIdx b) →
      t.resp.val = s.resp.val ∧ t.resp.vec = s.resp.vec) ∧
    ((∃ w, i = .maskb w) → t.resp.val = s.resp.val ∧ t.resp.flag = s.resp.flag) ∧
    ((∃ w, i = .mask w ∨ i = .parity w ∨ i = .deg w ∨ i = .rad w ∨ ∃ b, i = .maskb b) → t.draws = s.draws)

/-! ### The sequencer's steps -/

/-- R127: SETUP's guard delay over, the exchanges begin at K = 0; no row of the sequencer changes anything else.
`RESP_DONE` low there is log entry 16. -/
def Obligations.SetupLeadsToShift : Prop :=
  ∀ s : State, BlockMoves s → s.phase = .setup → step s = .next { s with
    phase := .shift, k := 0, respDone := false, turns := s.turns.tail }

/-- R127, R142: CMD_NOP, CMD_CLRERR, CMD_DIAG, CMD_MAG and CMD_ANGLE: an exchange that is not the window's last puts
the pending word of position K into `RBUF[K]` and goes on to the next position.
DEDUCED: log entries 14 and 16. -/
def Obligations.CommandExchangeGoesOn : Prop :=
  ∀ (s : State) (c : Cmd) (d : Device), s.chain.length = s.n → s.k + 1 < s.n → s.chain[s.k]? = some d →
    exec (cmdInstr c) s = .next { s with
      rbuf := Buffer.put s.k d.pend s.rbuf, k := s.k + 1, respDone := false }

/-- R127, R143: the same commands at the window's last exchange: the word is stored, chip-select rises, PHASE is
RECOVER, and every position latches its response to the command, with a fresh choice of the oracle per
position.
DEDUCED: log entries 14 and 16; the numbering of the choices is log entry 8. -/
def Obligations.LastExchangeClosesWindow : Prop :=
  ∀ (s : State) (c : Cmd) (d : Device), s.chain.length = s.n → s.k + 1 = s.n → s.chain[s.k]? = some d →
    ∃ latchedChain : List Device,
      exec (cmdInstr c) s = .next { s with
        rbuf := Buffer.put s.k d.pend s.rbuf, k := s.n, written := true, csN := true, phase := .recover
        lastCmd := some (romWord s.params.rom c), respDone := false
        chain := latchedChain, draws := s.draws + s.n } ∧
      latchedChain.length = s.n ∧
      ∀ i, i < s.n → latchedChain[i]? = some ⟨Config.sensorResp i (romWord s.params.rom c) (s.draws + i),
        some (romWord s.params.rom c)⟩

/-- U6 of spec/93_implementation_defined.md, R145: where the chain's length is not N the block still does its N
exchanges: each stores a free value and goes on, the last one closes the window, and N + 1 steps from SETUP make the
whole transaction, with a word stored at every position.
What the devices hold after it is free too, and of no known command: the form of both is log entry 13. The meaning
of a command word is log entry 14, `RESP_DONE` low there log entry 16, the count of steps log entries 1 and 18. -/
def Obligations.WrongChainLengthStoresFreeWord : Prop :=
  (∀ (s : State) (c : Cmd), s.chain.length ≠ s.n → s.k + 1 < s.n →
    exec (cmdInstr c) s = .next { s with
      rbuf := Buffer.put s.k (Config.draw16 s.draws) s.rbuf, k := s.k + 1, respDone := false
      draws := s.draws + 1 }) ∧
  (∀ (s : State) (c : Cmd), s.chain.length ≠ s.n → s.k + 1 = s.n → ∃ ch : List Device,
    exec (cmdInstr c) s = .next { s with
      rbuf := Buffer.put s.k (Config.draw16 s.draws) s.rbuf, k := s.n, written := true, csN := true
      phase := .recover, lastCmd := some (romWord s.params.rom c), respDone := false, chain := ch
      draws := s.draws + 1 + s.chain.length } ∧
    ch.length = s.chain.length ∧
    ∀ i, i < s.chain.length → ch[i]? = some ⟨Config.draw16 (s.draws + 1 + i), none⟩) ∧
  (∀ s : State, Quiet s → s.phase = .setup → s.chain.length ≠ s.n → 1 ≤ s.n → ∃ t,
    run (s.n + 1) s = .next t ∧ t.csN = true ∧ t.phase = .recover ∧ t.k = s.n ∧ t.written = true ∧
    t.lastCmd = some s.curCmd ∧
    ∀ i, i < s.n → Buffer.get i t.rbuf = some (Config.draw16 (s.draws + i)))

/-- Frame of the five command words: the word stored goes to position K, every other word of the buffer reads as
before; no result register, status bit, FREQ, CFG_N, request or parameter changes; the chain, the window and the
ghosts change only at the last exchange. -/
def Obligations.FrameCommands : Prop :=
  ∀ (s t : State) (c : Cmd), exec (cmdInstr c) s = .next t →
    (∀ a, a ≠ s.k → Buffer.get a t.rbuf = Buffer.get a s.rbuf) ∧ t.cfgN = s.cfgN ∧ t.freq = s.freq ∧
    t.txn = s.txn ∧ t.curCmd = s.curCmd ∧ t.curOp = s.curOp ∧ t.refused = s.refused ∧
    t.refuseCode = s.refuseCode ∧ t.resp = s.resp ∧ t.host = s.host ∧ t.turns = s.turns ∧
    t.params = s.params ∧ t.chain.length = s.chain.length ∧
    (s.k + 1 < s.n → t.csN = s.csN ∧ t.phase = s.phase ∧ t.written = s.written ∧ t.lastCmd = s.lastCmd ∧
      t.chain = s.chain)

/-- R127: with K of N or more no row of the table applies and the machine stops (the model's choice of a stop, log
entry 15); no run reaches such a state. -/
def Obligations.NoExchangePastTheLast : Prop :=
  ∀ (s : State) (c : Cmd), s.n ≤ s.k → exec (cmdInstr c) s = .fault .noTransition

/-- R127, R161: RECOVER's guard delay over, READ and READ_ANGLE begin their second transaction with NOP, any other
request completes with the view, and after a reset nothing more happens.
`RESP_DONE` low where nothing completes is log entry 16. -/
def Obligations.RecoverContinuesOrEnds : Prop :=
  ∀ s : State, BlockMoves s → s.phase = .recover →
    (s.txn = .one → (s.curOp = some .read ∨ s.curOp = some .readAngle) → step s = .next { s with
      txn := .two, curCmd := s.params.rom.nop, csN := false, phase := .setup, respDone := false
      turns := s.turns.tail }) ∧
    (∀ op, s.curOp = some op → (s.txn = .two ∨ (op ≠ .read ∧ op ≠ .readAngle)) → step s = .next { s with
      phase := .idle, resp := { s.resp with view := true }, respDone := true, turns := s.turns.tail }) ∧
    (s.curOp = none → step s = .next { s with
      phase := .idle, respDone := false, turns := s.turns.tail })

/-! ### Whole transactions and requests -/

/-- R125, R127, R141: from SETUP, N + 1 steps are `TRANSACTION(CUR_CMD)`: the buffer holds every position's pending
word, chip-select is high, and every position has latched its response to the command.
The count of steps rests on log entries 1 and 18, the fields that no rule writes there on log entry 17. -/
def Obligations.StepsMakeTransaction : Prop :=
  ∀ s : State, Quiet s → s.phase = .setup → ChainFits s → BufferOk s →
    run (s.n + 1) s = .next (transactionEnd s.curCmd s)

/-- R124, R128, R129, R172: one window per transaction: from SETUP, after the guard step and any j of the N
exchanges but the last, chip-select is still low, the same command word is on the bus, and K = j; after the N-th,
chip-select is high.
The count of steps rests on log entries 1 and 18. -/
def Obligations.OneWindowSpansAllExchanges : Prop :=
  ∀ s : State, Quiet s → s.phase = .setup → ChainFits s →
    (∀ j, j < s.n → ∃ t, run (j + 1) s = .next t ∧ t.phase = .shift ∧ t.csN = s.csN ∧ t.k = j ∧
      t.curCmd = s.curCmd ∧ ∀ i, i < j → Buffer.get i t.rbuf = (s.chain[i]?).map Device.pend) ∧
    ∃ t, run (s.n + 1) s = .next t ∧ t.csN = true ∧ t.phase = .recover ∧ t.k = s.n

/-- R126: an EXEC request runs to its end in N + 3 steps, with the state the pseudocode gives.
The count of steps rests on log entries 1 and 18. -/
def Obligations.ExecRunsOneTransaction : Prop :=
  ∀ (s : State) (r : Request) (csel : BitVec 3), Quiet s → Offers r s → ChainFits s → BufferOk s →
    decodeRequest r.word r.vec.length = .accept (.exec csel) →
    ∃ c, enc s.params.rom csel = some c ∧
      run (s.n + 3) s = .next (oneTransaction .exec c s)

/-- R165, R170: READ_SEQ and READ_ANGLE_SEQ run to their end in N + 3 steps, as one transaction.
The count of steps rests on log entries 1 and 18. -/
def Obligations.PipelinedReadsRunOneTransaction : Prop :=
  ∀ (s : State) (r : Request), Quiet s → Offers r s → ChainFits s → BufferOk s →
    (∀ csel, decodeRequest r.word r.vec.length = .accept (.readSeq csel) →
      ∃ c, enc s.params.rom csel = some c ∧
        run (s.n + 3) s = .next (oneTransaction .readSeq c s)) ∧
    (decodeRequest r.word r.vec.length = .accept .readAngleSeq →
      run (s.n + 3) s = .next (oneTransaction .readAngleSeq s.params.rom.angle s))

/-- R162, R168, R172: READ and READ_ANGLE run to their end in 2N + 5 steps, as two transactions, the second with
NOP.
The count of steps rests on log entries 1 and 18. -/
def Obligations.ImmediateReadsRunTwoTransactions : Prop :=
  ∀ (s : State) (r : Request), Quiet s → Offers r s → ChainFits s → BufferOk s →
    (∀ csel, decodeRequest r.word r.vec.length = .accept (.read csel) →
      ∃ c, enc s.params.rom csel = some c ∧
        run (2 * s.n + 5) s = .next (twoTransactions .read c s)) ∧
    (decodeRequest r.word r.vec.length = .accept .readAngle →
      run (2 * s.n + 5) s = .next (twoTransactions .readAngle s.params.rom.angle s))

/-- R164, R166, R167: a READ or READ_ANGLE request, run to its end, leaves in the buffer every position's response
to its own command, whatever the buffer and the chain held, and in the chain the responses to NOP; a READ_SEQ or
READ_ANGLE_SEQ request leaves the words that were pending before, and in the chain the responses to its command.
The counts of steps rest on log entries 1 and 18, the numbering of the oracle's choices is log entry 8. -/
def Obligations.LatencyOfTheReadModes : Prop :=
  ∀ (s : State) (r : Request) (i : Instr) (c : Word), Quiet s → Offers r s → ChainFits s → BufferOk s →
    decodeRequest r.word r.vec.length = .accept i →
    ((∃ csel, i = .read csel ∧ enc s.params.rom csel = some c) ∨ (i = .readAngle ∧ c = s.params.rom.angle) →
      ∃ t, run (2 * s.n + 5) s = .next t ∧ t.phase = .idle ∧ t.resp.view = true ∧
        t.lastCmd = some s.params.rom.nop ∧
        ∀ k, k < s.n → Buffer.get k t.rbuf = some (Config.sensorResp k c (s.draws + k)) ∧
          (t.chain[k]?).map Device.pendCmd = some (some s.params.rom.nop)) ∧
    ((∃ csel, i = .readSeq csel ∧ enc s.params.rom csel = some c) ∨
        (i = .readAngleSeq ∧ c = s.params.rom.angle) →
      ∃ t, run (s.n + 3) s = .next t ∧ t.phase = .idle ∧ t.resp.view = true ∧ t.lastCmd = some c ∧
        ∀ k d, s.chain[k]? = some d → Buffer.get k t.rbuf = some d.pend ∧
          t.chain[k]? = some ⟨Config.sensorResp k c (s.draws + k), some c⟩)

/-- R163: a READ request and the two requests EXEC of the same command and EXEC of NOP end in the same buffer,
chip-select level, chain, ghosts and view. They differ in nothing but CUR_OP and TXN, which keep their last values
(log entry 17); the counts of steps rest on log entries 1 and 18. -/
def Obligations.ReadEqualsExecThenExecNop : Prop :=
  ∀ (s : State) (csel : BitVec 3) (rest : List Request), csel.toNat < 5 → Quiet s → s.phase = .idle →
    s.refuseCode ≠ .cfgN → ChainFits s → BufferOk s →
    ∃ t u : State,
      run (2 * s.n + 5)
        { s with host := ⟨packRequest .read csel 0 0 0, []⟩ :: rest } = .next t ∧
      run (2 * s.n + 6)
        { s with
          host := ⟨packRequest .exec csel 0 0 0, []⟩ :: ⟨packRequest .exec 0 0 0 0, []⟩ :: rest } = .next u ∧
      t.rbuf = u.rbuf ∧ t.csN = u.csN ∧ t.chain = u.chain ∧ t.written = u.written ∧ t.lastCmd = u.lastCmd ∧
      t.resp.view = u.resp.view ∧ t.phase = .idle ∧ u.phase = .idle ∧
      t = { u with curOp := some .read, txn := .two }

/-! ### The invariant and whole-machine rules -/

/-- The invariant holds after every step from every state in which it holds: the buffer stays canonical and within N,
CS_n is low exactly in SETUP and SHIFT, FREQ stays legal, only ROM words are on the bus, and the rest of `Inv`. -/
def Obligations.StepKeepsInvariant : Prop := ∀ s t : State, Inv s → step s = .next t → Inv t

/-- The state after reset has the invariant.
The state is the model's own where the spec fixes nothing: log entries 3, 7, 9 and 10. -/
def Obligations.ResetHasInvariant : Prop := Inv State.reset

/-- A state with the invariant never faults: the machine always takes a next state. -/
def Obligations.InvariantMeansProgress : Prop := ∀ s : State, Inv s → ∃ t, step s = .next t

/-- R22, R25: but for a reset, only the exchange step changes the buffer, and only at position K. -/
def Obligations.OnlyExchangesWriteBuffer : Prop :=
  ∀ s t : State, NoReset s → step s = .next t →
    (s.phase ≠ .shift → t.rbuf = s.rbuf) ∧ ∀ a, a ≠ s.k → Buffer.get a t.rbuf = Buffer.get a s.rbuf

/-- R26, R27, R37: but for a reset, no step changes CFG_N, and only a SETFREQ request changes FREQ; no step at all
changes the parameters. -/
def Obligations.ConfigurationIsFixed : Prop :=
  ∀ s t : State, step s = .next t → t.params = s.params ∧ (NoReset s → t.cfgN = s.cfgN ∧
    (t.freq ≠ s.freq → BlockMoves s ∧
      ∃ r, Offers r s ∧ decodeRequest r.word r.vec.length = .accept (.setfreq t.freq)))

/-- R32, R232: but for a reset, REFUSED once set stays set, and the first code stays recorded. -/
def Obligations.RefusalIsSticky : Prop :=
  ∀ s t : State, NoReset s → s.refused = true → step s = .next t →
    t.refused = true ∧ t.refuseCode = s.refuseCode

/-! ### Reset, power-up, status, figures -/

/-- R39, R250, R252, R254: a reset with a legal N, no window being open, leaves the values of R39, in RECOVER, and
the chain as it was.
R39 does not list `RESP_DONE`: that it is low is the model's choice, log entry 16. That the waiting requests outlast
a reset is the model's choice, log entry 10. -/
def Obligations.ResetGivesResetState : Prop :=
  ∀ (s : State) (n : Nat), s.turns.head? = some (.reset n) → 1 ≤ n → n ≤ 255 →
    s.phase = .idle ∨ s.phase = .recover →
    step s = .next {
      rbuf := [], cfgN := BitVec.ofNat 8 n, freq := 1000000#32, csN := true, phase := .recover, k := 0
      txn := .one, curCmd := 0x0000#16, curOp := none, refused := false, refuseCode := .none
      resp := ⟨0#16, false, [], false⟩, respDone := false, written := false, lastCmd := none
      chain := s.chain, host := s.host, turns := s.turns.tail, params := s.params
      draws := s.draws }

/-- R223: a reset with N = 0 or above 255 leaves the refused state with code `CFG_N`, chip-select high and no
exchange due. The values of CFG_N (0) and PHASE (IDLE) there are the model's choice, log entry 11. -/
def Obligations.InvalidResetGivesRefusedState : Prop :=
  ∀ (s : State) (n : Nat), s.turns.head? = some (.reset n) → n = 0 ∨ 255 < n → ∃ t, step s = .next t ∧
    t.refused = true ∧ t.refuseCode = .cfgN ∧ t.csN = true ∧ t.phase = .idle ∧ t.cfgN = 0#8 ∧ t.rbuf = []

/-- R230, R39, U5 of spec/93_implementation_defined.md: a reset in SETUP or SHIFT raises chip-select at once, ends
the transaction part-way and leaves the values of R39; what the chain holds then is free.
That it answers no known command (PENDCMD none) is the model's choice, log entry 12; so are `RESP_DONE` low, log
entry 16, and that the waiting requests outlast a reset, log entry 10. -/
def Obligations.ResetCutsTransaction : Prop :=
  ∀ (s : State) (n : Nat), s.turns.head? = some (.reset n) → 1 ≤ n → n ≤ 255 →
    s.phase = .setup ∨ s.phase = .shift → ∃ ch : List Device,
    step s = .next {
      rbuf := [], cfgN := BitVec.ofNat 8 n, freq := 1000000#32, csN := true, phase := .recover, k := 0
      txn := .one, curCmd := 0x0000#16, curOp := none, refused := false, refuseCode := .none
      resp := ⟨0#16, false, [], false⟩, respDone := false, written := false, lastCmd := none
      chain := ch, host := s.host, turns := s.turns.tail, params := s.params
      draws := s.draws + s.chain.length } ∧
    ch.length = s.chain.length ∧
    ∀ i, i < s.chain.length → ch[i]? = some ⟨Config.draw16 (s.draws + i), none⟩

/-- R144: after the sensors power up every pending word is a draw and answers no known command; the block keeps its
state.
That the event is one step of its own, in any phase, is log entries 10 and 30. -/
def Obligations.PowerUpDrawsPendingWords : Prop :=
  ∀ s : State, s.turns.head? = some .powerUp → ∃ ch : List Device,
    step s = .next { s with
      chain := ch, draws := s.draws + s.chain.length, respDone := false
      turns := s.turns.tail } ∧
    ch.length = s.chain.length ∧
    ∀ i, i < s.chain.length → ch[i]? = some ⟨Config.draw16 (s.draws + i), none⟩

/-- R127, R252, R242: from every state in RECOVER with no request in progress, as a reset leaves it, the block's step
leads to IDLE; every idle block with no request stays as it is; a final state stays final, its buffer and refusal
status too, until a reset; and from RECOVER with no request in progress, none waiting and nobody but the block to
move, every run ends in IDLE with the state otherwise as it was.
The idle block's step is log entry 9, the turns log entry 10, the end of a pulse log entry 16. -/
def Obligations.BlockWithoutRequestRests : Prop :=
  (∀ s : State, BlockMoves s → s.phase = .recover → s.curOp = none → step s = .next { s with
    phase := .idle, respDone := false, turns := s.turns.tail }) ∧
  (∀ s : State, BlockMoves s → s.phase = .idle → s.host = [] → step s = .next { s with
    respDone := false, turns := s.turns.tail }) ∧
  (∀ s t : State, Final s → NoReset s → step s = .next t →
    Final t ∧ t.rbuf = s.rbuf ∧ t.refused = s.refused ∧ t.refuseCode = s.refuseCode) ∧
  (∀ (s : State) (k : Nat), Quiet s → s.phase = .recover → s.curOp = none → s.host = [] →
    run (k + 1) s = .next { s with phase := .idle, respDone := false })

/-- R265: the lower bound on one transaction is twice `T_GUARD` and 16 bit times per position; an immediate read
takes twice that, and with `T_GUARD` 1 microsecond, 1 MHz and N = 1 a transaction takes 18 microseconds.
Rounding down to whole nanoseconds is the model's choice, log entry 27. -/
def Obligations.DurationLowerBounds : Prop :=
  (∀ (s : State) (f : Nat),
    requestMinNs s .exec f = 2 * s.params.tGuardNs + s.n * 16 * 1000000000 / f ∧
    requestMinNs s .read f = 2 * requestMinNs s .exec f ∧ requestMinNs s .mask f = 0) ∧
  requestMinNs State.reset .exec 1000000 = 18000

/-- R86, R222: the status outputs show BUSY, REFUSED, the code's value, N and FREQ in every state; by the invariant
ST_CODE is not 0 exactly when ST_REFUSED is set. They follow a request the decoder refuses, a SETFREQ in range, a
bus request taken, and a reset with a legal N. -/
def Obligations.StatusOutputsShowState : Prop :=
  (∀ s : State, ((statusOf s).stBusy = true ↔ s.phase ≠ .idle) ∧ (statusOf s).stRefused = s.refused ∧
    (statusOf s).stCode = refuseCodeBits s.refuseCode ∧ (statusOf s).stN = s.cfgN ∧
    (statusOf s).stFreq = s.freq) ∧
  [RefuseCode.none, .rsvdOp, .rsvdField, .rsvdCsel, .idxRange, .lenRange, .freqRange, .cfgN].map refuseCodeBits =
    [0#3, 1#3, 2#3, 3#3, 4#3, 5#3, 6#3, 7#3] ∧
  (∀ s : State, Inv s → ((statusOf s).stRefused = true ↔ (statusOf s).stCode ≠ 0#3)) ∧
  (∀ (s : State) (r : Request) (code : RefuseCode), BlockMoves s → Offers r s →
    decodeRequest r.word r.vec.length = .reject code → ∃ t, step s = .next t ∧
    statusOf t = { statusOf s with
      stRefused := true
      stCode := if (statusOf s).stRefused then (statusOf s).stCode else refuseCodeBits code }) ∧
  (∀ (s : State) (hz : BitVec 32), 1 ≤ hz.toNat → hz.toNat ≤ 10000000 → ∃ t,
    exec (.setfreq hz) s = .next t ∧ statusOf t = { statusOf s with stFreq := hz }) ∧
  (∀ (s : State) (csel : BitVec 3), csel.toNat < 5 → ∃ t,
    exec (.exec csel) s = .next t ∧ statusOf t = { statusOf s with stBusy := true }) ∧
  (∀ (s : State) (n : Nat), s.turns.head? = some (.reset n) → 1 ≤ n → n ≤ 255 → ∃ t, step s = .next t ∧
    statusOf t = ⟨true, false, 0#3, BitVec.ofNat 8 n, 1000000#32⟩)
end

