-- ==== Sys2Proof/Laws/State.lean ====
section
/-! SUPPORT. What each named update of the state leaves in each field: true by definition, so that no later proof
unfolds a record update. -/

namespace Sys2Proof.Machine

section
variable (s : State)

/-! ### writeWord -/

@[simp] theorem writeWord_rbuf (j : Nat) (v : Word) : (writeWord j v s).rbuf = Buffer.put j v s.rbuf := rfl
@[simp] theorem writeWord_cfgN (j : Nat) (v : Word) : (writeWord j v s).cfgN = s.cfgN := rfl
@[simp] theorem writeWord_freq (j : Nat) (v : Word) : (writeWord j v s).freq = s.freq := rfl
@[simp] theorem writeWord_csN (j : Nat) (v : Word) : (writeWord j v s).csN = s.csN := rfl
@[simp] theorem writeWord_phase (j : Nat) (v : Word) : (writeWord j v s).phase = s.phase := rfl
@[simp] theorem writeWord_k (j : Nat) (v : Word) : (writeWord j v s).k = s.k := rfl
@[simp] theorem writeWord_txn (j : Nat) (v : Word) : (writeWord j v s).txn = s.txn := rfl
@[simp] theorem writeWord_curCmd (j : Nat) (v : Word) : (writeWord j v s).curCmd = s.curCmd := rfl
@[simp] theorem writeWord_curOp (j : Nat) (v : Word) : (writeWord j v s).curOp = s.curOp := rfl
@[simp] theorem writeWord_refused (j : Nat) (v : Word) : (writeWord j v s).refused = s.refused := rfl
@[simp] theorem writeWord_refuseCode (j : Nat) (v : Word) : (writeWord j v s).refuseCode = s.refuseCode := rfl
@[simp] theorem writeWord_resp (j : Nat) (v : Word) : (writeWord j v s).resp = s.resp := rfl
@[simp] theorem writeWord_respDone (j : Nat) (v : Word) : (writeWord j v s).respDone = s.respDone := rfl
@[simp] theorem writeWord_written (j : Nat) (v : Word) : (writeWord j v s).written = s.written := rfl
@[simp] theorem writeWord_lastCmd (j : Nat) (v : Word) : (writeWord j v s).lastCmd = s.lastCmd := rfl
@[simp] theorem writeWord_chain (j : Nat) (v : Word) : (writeWord j v s).chain = s.chain := rfl
@[simp] theorem writeWord_host (j : Nat) (v : Word) : (writeWord j v s).host = s.host := rfl
@[simp] theorem writeWord_turns (j : Nat) (v : Word) : (writeWord j v s).turns = s.turns := rfl
@[simp] theorem writeWord_params (j : Nat) (v : Word) : (writeWord j v s).params = s.params := rfl
@[simp] theorem writeWord_draws (j : Nat) (v : Word) : (writeWord j v s).draws = s.draws := rfl
@[simp] theorem writeWord_n (j : Nat) (v : Word) : (writeWord j v s).n = s.n := rfl

/-! ### useDraw -/

@[simp] theorem useDraw_rbuf : (useDraw s).rbuf = s.rbuf := rfl
@[simp] theorem useDraw_cfgN : (useDraw s).cfgN = s.cfgN := rfl
@[simp] theorem useDraw_freq : (useDraw s).freq = s.freq := rfl
@[simp] theorem useDraw_csN : (useDraw s).csN = s.csN := rfl
@[simp] theorem useDraw_phase : (useDraw s).phase = s.phase := rfl
@[simp] theorem useDraw_k : (useDraw s).k = s.k := rfl
@[simp] theorem useDraw_txn : (useDraw s).txn = s.txn := rfl
@[simp] theorem useDraw_curCmd : (useDraw s).curCmd = s.curCmd := rfl
@[simp] theorem useDraw_curOp : (useDraw s).curOp = s.curOp := rfl
@[simp] theorem useDraw_refused : (useDraw s).refused = s.refused := rfl
@[simp] theorem useDraw_refuseCode : (useDraw s).refuseCode = s.refuseCode := rfl
@[simp] theorem useDraw_resp : (useDraw s).resp = s.resp := rfl
@[simp] theorem useDraw_respDone : (useDraw s).respDone = s.respDone := rfl
@[simp] theorem useDraw_written : (useDraw s).written = s.written := rfl
@[simp] theorem useDraw_lastCmd : (useDraw s).lastCmd = s.lastCmd := rfl
@[simp] theorem useDraw_chain : (useDraw s).chain = s.chain := rfl
@[simp] theorem useDraw_host : (useDraw s).host = s.host := rfl
@[simp] theorem useDraw_turns : (useDraw s).turns = s.turns := rfl
@[simp] theorem useDraw_params : (useDraw s).params = s.params := rfl
@[simp] theorem useDraw_draws : (useDraw s).draws = s.draws + 1 := rfl
@[simp] theorem useDraw_n : (useDraw s).n = s.n := rfl

/-! ### complete -/

@[simp] theorem complete_rbuf (r : Resp) : (complete r s).rbuf = s.rbuf := rfl
@[simp] theorem complete_cfgN (r : Resp) : (complete r s).cfgN = s.cfgN := rfl
@[simp] theorem complete_freq (r : Resp) : (complete r s).freq = s.freq := rfl
@[simp] theorem complete_csN (r : Resp) : (complete r s).csN = s.csN := rfl
@[simp] theorem complete_phase (r : Resp) : (complete r s).phase = s.phase := rfl
@[simp] theorem complete_k (r : Resp) : (complete r s).k = s.k := rfl
@[simp] theorem complete_txn (r : Resp) : (complete r s).txn = s.txn := rfl
@[simp] theorem complete_curCmd (r : Resp) : (complete r s).curCmd = s.curCmd := rfl
@[simp] theorem complete_curOp (r : Resp) : (complete r s).curOp = s.curOp := rfl
@[simp] theorem complete_refused (r : Resp) : (complete r s).refused = s.refused := rfl
@[simp] theorem complete_refuseCode (r : Resp) : (complete r s).refuseCode = s.refuseCode := rfl
@[simp] theorem complete_resp (r : Resp) : (complete r s).resp = r := rfl
@[simp] theorem complete_respDone (r : Resp) : (complete r s).respDone = true := rfl
@[simp] theorem complete_written (r : Resp) : (complete r s).written = s.written := rfl
@[simp] theorem complete_lastCmd (r : Resp) : (complete r s).lastCmd = s.lastCmd := rfl
@[simp] theorem complete_chain (r : Resp) : (complete r s).chain = s.chain := rfl
@[simp] theorem complete_host (r : Resp) : (complete r s).host = s.host := rfl
@[simp] theorem complete_turns (r : Resp) : (complete r s).turns = s.turns := rfl
@[simp] theorem complete_params (r : Resp) : (complete r s).params = s.params := rfl
@[simp] theorem complete_draws (r : Resp) : (complete r s).draws = s.draws := rfl
@[simp] theorem complete_n (r : Resp) : (complete r s).n = s.n := rfl

/-! ### completeVal -/

@[simp] theorem completeVal_rbuf (v : Word) : (completeVal v s).rbuf = s.rbuf := rfl
@[simp] theorem completeVal_cfgN (v : Word) : (completeVal v s).cfgN = s.cfgN := rfl
@[simp] theorem completeVal_freq (v : Word) : (completeVal v s).freq = s.freq := rfl
@[simp] theorem completeVal_csN (v : Word) : (completeVal v s).csN = s.csN := rfl
@[simp] theorem completeVal_phase (v : Word) : (completeVal v s).phase = s.phase := rfl
@[simp] theorem completeVal_k (v : Word) : (completeVal v s).k = s.k := rfl
@[simp] theorem completeVal_txn (v : Word) : (completeVal v s).txn = s.txn := rfl
@[simp] theorem completeVal_curCmd (v : Word) : (completeVal v s).curCmd = s.curCmd := rfl
@[simp] theorem completeVal_curOp (v : Word) : (completeVal v s).curOp = s.curOp := rfl
@[simp] theorem completeVal_refused (v : Word) : (completeVal v s).refused = s.refused := rfl
@[simp] theorem completeVal_refuseCode (v : Word) : (completeVal v s).refuseCode = s.refuseCode := rfl
@[simp] theorem completeVal_resp (v : Word) :
    (completeVal v s).resp = { s.resp with val := v, view := false } := rfl
@[simp] theorem completeVal_respDone (v : Word) : (completeVal v s).respDone = true := rfl
@[simp] theorem completeVal_written (v : Word) : (completeVal v s).written = s.written := rfl
@[simp] theorem completeVal_lastCmd (v : Word) : (completeVal v s).lastCmd = s.lastCmd := rfl
@[simp] theorem completeVal_chain (v : Word) : (completeVal v s).chain = s.chain := rfl
@[simp] theorem completeVal_host (v : Word) : (completeVal v s).host = s.host := rfl
@[simp] theorem completeVal_turns (v : Word) : (completeVal v s).turns = s.turns := rfl
@[simp] theorem completeVal_params (v : Word) : (completeVal v s).params = s.params := rfl
@[simp] theorem completeVal_draws (v : Word) : (completeVal v s).draws = s.draws := rfl
@[simp] theorem completeVal_n (v : Word) : (completeVal v s).n = s.n := rfl

/-! ### completeFlag -/

@[simp] theorem completeFlag_rbuf (b : Bool) : (completeFlag b s).rbuf = s.rbuf := rfl
@[simp] theorem completeFlag_cfgN (b : Bool) : (completeFlag b s).cfgN = s.cfgN := rfl
@[simp] theorem completeFlag_freq (b : Bool) : (completeFlag b s).freq = s.freq := rfl
@[simp] theorem completeFlag_csN (b : Bool) : (completeFlag b s).csN = s.csN := rfl
@[simp] theorem completeFlag_phase (b : Bool) : (completeFlag b s).phase = s.phase := rfl
@[simp] theorem completeFlag_k (b : Bool) : (completeFlag b s).k = s.k := rfl
@[simp] theorem completeFlag_txn (b : Bool) : (completeFlag b s).txn = s.txn := rfl
@[simp] theorem completeFlag_curCmd (b : Bool) : (completeFlag b s).curCmd = s.curCmd := rfl
@[simp] theorem completeFlag_curOp (b : Bool) : (completeFlag b s).curOp = s.curOp := rfl
@[simp] theorem completeFlag_refused (b : Bool) : (completeFlag b s).refused = s.refused := rfl
@[simp] theorem completeFlag_refuseCode (b : Bool) : (completeFlag b s).refuseCode = s.refuseCode := rfl
@[simp] theorem completeFlag_resp (b : Bool) :
    (completeFlag b s).resp = { s.resp with flag := b, view := false } := rfl
@[simp] theorem completeFlag_respDone (b : Bool) : (completeFlag b s).respDone = true := rfl
@[simp] theorem completeFlag_written (b : Bool) : (completeFlag b s).written = s.written := rfl
@[simp] theorem completeFlag_lastCmd (b : Bool) : (completeFlag b s).lastCmd = s.lastCmd := rfl
@[simp] theorem completeFlag_chain (b : Bool) : (completeFlag b s).chain = s.chain := rfl
@[simp] theorem completeFlag_host (b : Bool) : (completeFlag b s).host = s.host := rfl
@[simp] theorem completeFlag_turns (b : Bool) : (completeFlag b s).turns = s.turns := rfl
@[simp] theorem completeFlag_params (b : Bool) : (completeFlag b s).params = s.params := rfl
@[simp] theorem completeFlag_draws (b : Bool) : (completeFlag b s).draws = s.draws := rfl
@[simp] theorem completeFlag_n (b : Bool) : (completeFlag b s).n = s.n := rfl

/-! ### completeVec -/

@[simp] theorem completeVec_rbuf (ws : List Word) : (completeVec ws s).rbuf = s.rbuf := rfl
@[simp] theorem completeVec_cfgN (ws : List Word) : (completeVec ws s).cfgN = s.cfgN := rfl
@[simp] theorem completeVec_freq (ws : List Word) : (completeVec ws s).freq = s.freq := rfl
@[simp] theorem completeVec_csN (ws : List Word) : (completeVec ws s).csN = s.csN := rfl
@[simp] theorem completeVec_phase (ws : List Word) : (completeVec ws s).phase = s.phase := rfl
@[simp] theorem completeVec_k (ws : List Word) : (completeVec ws s).k = s.k := rfl
@[simp] theorem completeVec_txn (ws : List Word) : (completeVec ws s).txn = s.txn := rfl
@[simp] theorem completeVec_curCmd (ws : List Word) : (completeVec ws s).curCmd = s.curCmd := rfl
@[simp] theorem completeVec_curOp (ws : List Word) : (completeVec ws s).curOp = s.curOp := rfl
@[simp] theorem completeVec_refused (ws : List Word) : (completeVec ws s).refused = s.refused := rfl
@[simp] theorem completeVec_refuseCode (ws : List Word) : (completeVec ws s).refuseCode = s.refuseCode := rfl
@[simp] theorem completeVec_resp (ws : List Word) :
    (completeVec ws s).resp = { s.resp with vec := ws, view := false } := rfl
@[simp] theorem completeVec_respDone (ws : List Word) : (completeVec ws s).respDone = true := rfl
@[simp] theorem completeVec_written (ws : List Word) : (completeVec ws s).written = s.written := rfl
@[simp] theorem completeVec_lastCmd (ws : List Word) : (completeVec ws s).lastCmd = s.lastCmd := rfl
@[simp] theorem completeVec_chain (ws : List Word) : (completeVec ws s).chain = s.chain := rfl
@[simp] theorem completeVec_host (ws : List Word) : (completeVec ws s).host = s.host := rfl
@[simp] theorem completeVec_turns (ws : List Word) : (completeVec ws s).turns = s.turns := rfl
@[simp] theorem completeVec_params (ws : List Word) : (completeVec ws s).params = s.params := rfl
@[simp] theorem completeVec_draws (ws : List Word) : (completeVec ws s).draws = s.draws := rfl
@[simp] theorem completeVec_n (ws : List Word) : (completeVec ws s).n = s.n := rfl

/-! ### completeView -/

@[simp] theorem completeView_rbuf : (completeView s).rbuf = s.rbuf := rfl
@[simp] theorem completeView_cfgN : (completeView s).cfgN = s.cfgN := rfl
@[simp] theorem completeView_freq : (completeView s).freq = s.freq := rfl
@[simp] theorem completeView_csN : (completeView s).csN = s.csN := rfl
@[simp] theorem completeView_phase : (completeView s).phase = s.phase := rfl
@[simp] theorem completeView_k : (completeView s).k = s.k := rfl
@[simp] theorem completeView_txn : (completeView s).txn = s.txn := rfl
@[simp] theorem completeView_curCmd : (completeView s).curCmd = s.curCmd := rfl
@[simp] theorem completeView_curOp : (completeView s).curOp = s.curOp := rfl
@[simp] theorem completeView_refused : (completeView s).refused = s.refused := rfl
@[simp] theorem completeView_refuseCode : (completeView s).refuseCode = s.refuseCode := rfl
@[simp] theorem completeView_resp : (completeView s).resp = { s.resp with view := true } := rfl
@[simp] theorem completeView_respDone : (completeView s).respDone = true := rfl
@[simp] theorem completeView_written : (completeView s).written = s.written := rfl
@[simp] theorem completeView_lastCmd : (completeView s).lastCmd = s.lastCmd := rfl
@[simp] theorem completeView_chain : (completeView s).chain = s.chain := rfl
@[simp] theorem completeView_host : (completeView s).host = s.host := rfl
@[simp] theorem completeView_turns : (completeView s).turns = s.turns := rfl
@[simp] theorem completeView_params : (completeView s).params = s.params := rfl
@[simp] theorem completeView_draws : (completeView s).draws = s.draws := rfl
@[simp] theorem completeView_n : (completeView s).n = s.n := rfl

/-! ### refuse -/

@[simp] theorem refuse_rbuf (code : RefuseCode) : (refuse code s).rbuf = s.rbuf := rfl
@[simp] theorem refuse_cfgN (code : RefuseCode) : (refuse code s).cfgN = s.cfgN := rfl
@[simp] theorem refuse_freq (code : RefuseCode) : (refuse code s).freq = s.freq := rfl
@[simp] theorem refuse_csN (code : RefuseCode) : (refuse code s).csN = s.csN := rfl
@[simp] theorem refuse_phase (code : RefuseCode) : (refuse code s).phase = s.phase := rfl
@[simp] theorem refuse_k (code : RefuseCode) : (refuse code s).k = s.k := rfl
@[simp] theorem refuse_txn (code : RefuseCode) : (refuse code s).txn = s.txn := rfl
@[simp] theorem refuse_curCmd (code : RefuseCode) : (refuse code s).curCmd = s.curCmd := rfl
@[simp] theorem refuse_curOp (code : RefuseCode) : (refuse code s).curOp = s.curOp := rfl
@[simp] theorem refuse_refused (code : RefuseCode) : (refuse code s).refused = true := rfl
@[simp] theorem refuse_refuseCode (code : RefuseCode) :
    (refuse code s).refuseCode = if s.refused then s.refuseCode else code := rfl
@[simp] theorem refuse_resp (code : RefuseCode) : (refuse code s).resp = s.resp := rfl
@[simp] theorem refuse_respDone (code : RefuseCode) : (refuse code s).respDone = true := rfl
@[simp] theorem refuse_written (code : RefuseCode) : (refuse code s).written = s.written := rfl
@[simp] theorem refuse_lastCmd (code : RefuseCode) : (refuse code s).lastCmd = s.lastCmd := rfl
@[simp] theorem refuse_chain (code : RefuseCode) : (refuse code s).chain = s.chain := rfl
@[simp] theorem refuse_host (code : RefuseCode) : (refuse code s).host = s.host := rfl
@[simp] theorem refuse_turns (code : RefuseCode) : (refuse code s).turns = s.turns := rfl
@[simp] theorem refuse_params (code : RefuseCode) : (refuse code s).params = s.params := rfl
@[simp] theorem refuse_draws (code : RefuseCode) : (refuse code s).draws = s.draws := rfl
@[simp] theorem refuse_n (code : RefuseCode) : (refuse code s).n = s.n := rfl

/-! ### driveCs -/

@[simp] theorem driveCs_rbuf (lvl : Bool) : (driveCs lvl s).rbuf = s.rbuf := rfl
@[simp] theorem driveCs_cfgN (lvl : Bool) : (driveCs lvl s).cfgN = s.cfgN := rfl
@[simp] theorem driveCs_freq (lvl : Bool) : (driveCs lvl s).freq = s.freq := rfl
@[simp] theorem driveCs_csN (lvl : Bool) : (driveCs lvl s).csN = lvl := rfl
@[simp] theorem driveCs_phase (lvl : Bool) : (driveCs lvl s).phase = s.phase := rfl
@[simp] theorem driveCs_k (lvl : Bool) : (driveCs lvl s).k = s.k := rfl
@[simp] theorem driveCs_txn (lvl : Bool) : (driveCs lvl s).txn = s.txn := rfl
@[simp] theorem driveCs_curCmd (lvl : Bool) : (driveCs lvl s).curCmd = s.curCmd := rfl
@[simp] theorem driveCs_curOp (lvl : Bool) : (driveCs lvl s).curOp = s.curOp := rfl
@[simp] theorem driveCs_refused (lvl : Bool) : (driveCs lvl s).refused = s.refused := rfl
@[simp] theorem driveCs_refuseCode (lvl : Bool) : (driveCs lvl s).refuseCode = s.refuseCode := rfl
@[simp] theorem driveCs_resp (lvl : Bool) : (driveCs lvl s).resp = s.resp := rfl
@[simp] theorem driveCs_respDone (lvl : Bool) : (driveCs lvl s).respDone = s.respDone := rfl
@[simp] theorem driveCs_written (lvl : Bool) : (driveCs lvl s).written = s.written := rfl
@[simp] theorem driveCs_lastCmd (lvl : Bool) : (driveCs lvl s).lastCmd = s.lastCmd := rfl
@[simp] theorem driveCs_chain (lvl : Bool) : (driveCs lvl s).chain = s.chain := rfl
@[simp] theorem driveCs_host (lvl : Bool) : (driveCs lvl s).host = s.host := rfl
@[simp] theorem driveCs_turns (lvl : Bool) : (driveCs lvl s).turns = s.turns := rfl
@[simp] theorem driveCs_params (lvl : Bool) : (driveCs lvl s).params = s.params := rfl
@[simp] theorem driveCs_draws (lvl : Bool) : (driveCs lvl s).draws = s.draws := rfl
@[simp] theorem driveCs_n (lvl : Bool) : (driveCs lvl s).n = s.n := rfl

/-! ### beginTransaction -/

@[simp] theorem beginTransaction_rbuf (c : Word) : (beginTransaction c s).rbuf = s.rbuf := rfl
@[simp] theorem beginTransaction_cfgN (c : Word) : (beginTransaction c s).cfgN = s.cfgN := rfl
@[simp] theorem beginTransaction_freq (c : Word) : (beginTransaction c s).freq = s.freq := rfl
@[simp] theorem beginTransaction_csN (c : Word) : (beginTransaction c s).csN = false := rfl
@[simp] theorem beginTransaction_phase (c : Word) : (beginTransaction c s).phase = .setup := rfl
@[simp] theorem beginTransaction_k (c : Word) : (beginTransaction c s).k = s.k := rfl
@[simp] theorem beginTransaction_txn (c : Word) : (beginTransaction c s).txn = s.txn := rfl
@[simp] theorem beginTransaction_curCmd (c : Word) : (beginTransaction c s).curCmd = c := rfl
@[simp] theorem beginTransaction_curOp (c : Word) : (beginTransaction c s).curOp = s.curOp := rfl
@[simp] theorem beginTransaction_refused (c : Word) : (beginTransaction c s).refused = s.refused := rfl
@[simp] theorem beginTransaction_refuseCode (c : Word) : (beginTransaction c s).refuseCode = s.refuseCode := rfl
@[simp] theorem beginTransaction_resp (c : Word) : (beginTransaction c s).resp = s.resp := rfl
@[simp] theorem beginTransaction_respDone (c : Word) : (beginTransaction c s).respDone = false := rfl
@[simp] theorem beginTransaction_written (c : Word) : (beginTransaction c s).written = s.written := rfl
@[simp] theorem beginTransaction_lastCmd (c : Word) : (beginTransaction c s).lastCmd = s.lastCmd := rfl
@[simp] theorem beginTransaction_chain (c : Word) : (beginTransaction c s).chain = s.chain := rfl
@[simp] theorem beginTransaction_host (c : Word) : (beginTransaction c s).host = s.host := rfl
@[simp] theorem beginTransaction_turns (c : Word) : (beginTransaction c s).turns = s.turns := rfl
@[simp] theorem beginTransaction_params (c : Word) : (beginTransaction c s).params = s.params := rfl
@[simp] theorem beginTransaction_draws (c : Word) : (beginTransaction c s).draws = s.draws := rfl
@[simp] theorem beginTransaction_n (c : Word) : (beginTransaction c s).n = s.n := rfl

/-! ### takeBusRequest -/

@[simp] theorem takeBusRequest_rbuf (op : Op) (c : Word) : (takeBusRequest op c s).rbuf = s.rbuf := rfl
@[simp] theorem takeBusRequest_cfgN (op : Op) (c : Word) : (takeBusRequest op c s).cfgN = s.cfgN := rfl
@[simp] theorem takeBusRequest_freq (op : Op) (c : Word) : (takeBusRequest op c s).freq = s.freq := rfl
@[simp] theorem takeBusRequest_csN (op : Op) (c : Word) : (takeBusRequest op c s).csN = false := rfl
@[simp] theorem takeBusRequest_phase (op : Op) (c : Word) : (takeBusRequest op c s).phase = .setup := rfl
@[simp] theorem takeBusRequest_k (op : Op) (c : Word) : (takeBusRequest op c s).k = s.k := rfl
@[simp] theorem takeBusRequest_txn (op : Op) (c : Word) : (takeBusRequest op c s).txn = .one := rfl
@[simp] theorem takeBusRequest_curCmd (op : Op) (c : Word) : (takeBusRequest op c s).curCmd = c := rfl
@[simp] theorem takeBusRequest_curOp (op : Op) (c : Word) : (takeBusRequest op c s).curOp = some op := rfl
@[simp] theorem takeBusRequest_refused (op : Op) (c : Word) : (takeBusRequest op c s).refused = s.refused := rfl
@[simp] theorem takeBusRequest_refuseCode (op : Op) (c : Word) :
    (takeBusRequest op c s).refuseCode = s.refuseCode := rfl
@[simp] theorem takeBusRequest_resp (op : Op) (c : Word) : (takeBusRequest op c s).resp = s.resp := rfl
@[simp] theorem takeBusRequest_respDone (op : Op) (c : Word) : (takeBusRequest op c s).respDone = false := rfl
@[simp] theorem takeBusRequest_written (op : Op) (c : Word) : (takeBusRequest op c s).written = s.written := rfl
@[simp] theorem takeBusRequest_lastCmd (op : Op) (c : Word) : (takeBusRequest op c s).lastCmd = s.lastCmd := rfl
@[simp] theorem takeBusRequest_chain (op : Op) (c : Word) : (takeBusRequest op c s).chain = s.chain := rfl
@[simp] theorem takeBusRequest_host (op : Op) (c : Word) : (takeBusRequest op c s).host = s.host := rfl
@[simp] theorem takeBusRequest_turns (op : Op) (c : Word) : (takeBusRequest op c s).turns = s.turns := rfl
@[simp] theorem takeBusRequest_params (op : Op) (c : Word) : (takeBusRequest op c s).params = s.params := rfl
@[simp] theorem takeBusRequest_draws (op : Op) (c : Word) : (takeBusRequest op c s).draws = s.draws := rfl
@[simp] theorem takeBusRequest_n (op : Op) (c : Word) : (takeBusRequest op c s).n = s.n := rfl

/-! ### endSetup -/

@[simp] theorem endSetup_rbuf : (endSetup s).rbuf = s.rbuf := rfl
@[simp] theorem endSetup_cfgN : (endSetup s).cfgN = s.cfgN := rfl
@[simp] theorem endSetup_freq : (endSetup s).freq = s.freq := rfl
@[simp] theorem endSetup_csN : (endSetup s).csN = s.csN := rfl
@[simp] theorem endSetup_phase : (endSetup s).phase = .shift := rfl
@[simp] theorem endSetup_k : (endSetup s).k = 0 := rfl
@[simp] theorem endSetup_txn : (endSetup s).txn = s.txn := rfl
@[simp] theorem endSetup_curCmd : (endSetup s).curCmd = s.curCmd := rfl
@[simp] theorem endSetup_curOp : (endSetup s).curOp = s.curOp := rfl
@[simp] theorem endSetup_refused : (endSetup s).refused = s.refused := rfl
@[simp] theorem endSetup_refuseCode : (endSetup s).refuseCode = s.refuseCode := rfl
@[simp] theorem endSetup_resp : (endSetup s).resp = s.resp := rfl
@[simp] theorem endSetup_respDone : (endSetup s).respDone = false := rfl
@[simp] theorem endSetup_written : (endSetup s).written = s.written := rfl
@[simp] theorem endSetup_lastCmd : (endSetup s).lastCmd = s.lastCmd := rfl
@[simp] theorem endSetup_chain : (endSetup s).chain = s.chain := rfl
@[simp] theorem endSetup_host : (endSetup s).host = s.host := rfl
@[simp] theorem endSetup_turns : (endSetup s).turns = s.turns := rfl
@[simp] theorem endSetup_params : (endSetup s).params = s.params := rfl
@[simp] theorem endSetup_draws : (endSetup s).draws = s.draws := rfl
@[simp] theorem endSetup_n : (endSetup s).n = s.n := rfl

/-! ### drawChain -/

@[simp] theorem drawChain_rbuf : (drawChain s).rbuf = s.rbuf := rfl
@[simp] theorem drawChain_cfgN : (drawChain s).cfgN = s.cfgN := rfl
@[simp] theorem drawChain_freq : (drawChain s).freq = s.freq := rfl
@[simp] theorem drawChain_csN : (drawChain s).csN = s.csN := rfl
@[simp] theorem drawChain_phase : (drawChain s).phase = s.phase := rfl
@[simp] theorem drawChain_k : (drawChain s).k = s.k := rfl
@[simp] theorem drawChain_txn : (drawChain s).txn = s.txn := rfl
@[simp] theorem drawChain_curCmd : (drawChain s).curCmd = s.curCmd := rfl
@[simp] theorem drawChain_curOp : (drawChain s).curOp = s.curOp := rfl
@[simp] theorem drawChain_refused : (drawChain s).refused = s.refused := rfl
@[simp] theorem drawChain_refuseCode : (drawChain s).refuseCode = s.refuseCode := rfl
@[simp] theorem drawChain_resp : (drawChain s).resp = s.resp := rfl
@[simp] theorem drawChain_respDone : (drawChain s).respDone = s.respDone := rfl
@[simp] theorem drawChain_written : (drawChain s).written = s.written := rfl
@[simp] theorem drawChain_lastCmd : (drawChain s).lastCmd = s.lastCmd := rfl
@[simp] theorem drawChain_chain : (drawChain s).chain = drawnChain s.draws s.chain := rfl
@[simp] theorem drawChain_host : (drawChain s).host = s.host := rfl
@[simp] theorem drawChain_turns : (drawChain s).turns = s.turns := rfl
@[simp] theorem drawChain_params : (drawChain s).params = s.params := rfl
@[simp] theorem drawChain_draws : (drawChain s).draws = s.draws + s.chain.length := rfl
@[simp] theorem drawChain_n : (drawChain s).n = s.n := rfl

/-! ### powerUpChain -/

@[simp] theorem powerUpChain_rbuf : (powerUpChain s).rbuf = s.rbuf := rfl
@[simp] theorem powerUpChain_cfgN : (powerUpChain s).cfgN = s.cfgN := rfl
@[simp] theorem powerUpChain_freq : (powerUpChain s).freq = s.freq := rfl
@[simp] theorem powerUpChain_csN : (powerUpChain s).csN = s.csN := rfl
@[simp] theorem powerUpChain_phase : (powerUpChain s).phase = s.phase := rfl
@[simp] theorem powerUpChain_k : (powerUpChain s).k = s.k := rfl
@[simp] theorem powerUpChain_txn : (powerUpChain s).txn = s.txn := rfl
@[simp] theorem powerUpChain_curCmd : (powerUpChain s).curCmd = s.curCmd := rfl
@[simp] theorem powerUpChain_curOp : (powerUpChain s).curOp = s.curOp := rfl
@[simp] theorem powerUpChain_refused : (powerUpChain s).refused = s.refused := rfl
@[simp] theorem powerUpChain_refuseCode : (powerUpChain s).refuseCode = s.refuseCode := rfl
@[simp] theorem powerUpChain_resp : (powerUpChain s).resp = s.resp := rfl
@[simp] theorem powerUpChain_respDone : (powerUpChain s).respDone = false := rfl
@[simp] theorem powerUpChain_written : (powerUpChain s).written = s.written := rfl
@[simp] theorem powerUpChain_lastCmd : (powerUpChain s).lastCmd = s.lastCmd := rfl
@[simp] theorem powerUpChain_chain : (powerUpChain s).chain = drawnChain s.draws s.chain := rfl
@[simp] theorem powerUpChain_host : (powerUpChain s).host = s.host := rfl
@[simp] theorem powerUpChain_turns : (powerUpChain s).turns = s.turns := rfl
@[simp] theorem powerUpChain_params : (powerUpChain s).params = s.params := rfl
@[simp] theorem powerUpChain_draws : (powerUpChain s).draws = s.draws + s.chain.length := rfl
@[simp] theorem powerUpChain_n : (powerUpChain s).n = s.n := rfl

/-! ### popRequest -/

@[simp] theorem popRequest_rbuf : (popRequest s).rbuf = s.rbuf := rfl
@[simp] theorem popRequest_cfgN : (popRequest s).cfgN = s.cfgN := rfl
@[simp] theorem popRequest_freq : (popRequest s).freq = s.freq := rfl
@[simp] theorem popRequest_csN : (popRequest s).csN = s.csN := rfl
@[simp] theorem popRequest_phase : (popRequest s).phase = s.phase := rfl
@[simp] theorem popRequest_k : (popRequest s).k = s.k := rfl
@[simp] theorem popRequest_txn : (popRequest s).txn = s.txn := rfl
@[simp] theorem popRequest_curCmd : (popRequest s).curCmd = s.curCmd := rfl
@[simp] theorem popRequest_curOp : (popRequest s).curOp = s.curOp := rfl
@[simp] theorem popRequest_refused : (popRequest s).refused = s.refused := rfl
@[simp] theorem popRequest_refuseCode : (popRequest s).refuseCode = s.refuseCode := rfl
@[simp] theorem popRequest_resp : (popRequest s).resp = s.resp := rfl
@[simp] theorem popRequest_respDone : (popRequest s).respDone = s.respDone := rfl
@[simp] theorem popRequest_written : (popRequest s).written = s.written := rfl
@[simp] theorem popRequest_lastCmd : (popRequest s).lastCmd = s.lastCmd := rfl
@[simp] theorem popRequest_chain : (popRequest s).chain = s.chain := rfl
@[simp] theorem popRequest_host : (popRequest s).host = s.host.tail := rfl
@[simp] theorem popRequest_turns : (popRequest s).turns = s.turns := rfl
@[simp] theorem popRequest_params : (popRequest s).params = s.params := rfl
@[simp] theorem popRequest_draws : (popRequest s).draws = s.draws := rfl
@[simp] theorem popRequest_n : (popRequest s).n = s.n := rfl

/-! ### issueRequest -/

@[simp] theorem issueRequest_rbuf (r : Request) : (issueRequest r s).rbuf = s.rbuf := rfl
@[simp] theorem issueRequest_cfgN (r : Request) : (issueRequest r s).cfgN = s.cfgN := rfl
@[simp] theorem issueRequest_freq (r : Request) : (issueRequest r s).freq = s.freq := rfl
@[simp] theorem issueRequest_csN (r : Request) : (issueRequest r s).csN = s.csN := rfl
@[simp] theorem issueRequest_phase (r : Request) : (issueRequest r s).phase = s.phase := rfl
@[simp] theorem issueRequest_k (r : Request) : (issueRequest r s).k = s.k := rfl
@[simp] theorem issueRequest_txn (r : Request) : (issueRequest r s).txn = s.txn := rfl
@[simp] theorem issueRequest_curCmd (r : Request) : (issueRequest r s).curCmd = s.curCmd := rfl
@[simp] theorem issueRequest_curOp (r : Request) : (issueRequest r s).curOp = s.curOp := rfl
@[simp] theorem issueRequest_refused (r : Request) : (issueRequest r s).refused = s.refused := rfl
@[simp] theorem issueRequest_refuseCode (r : Request) : (issueRequest r s).refuseCode = s.refuseCode := rfl
@[simp] theorem issueRequest_resp (r : Request) : (issueRequest r s).resp = s.resp := rfl
@[simp] theorem issueRequest_respDone (r : Request) : (issueRequest r s).respDone = false := rfl
@[simp] theorem issueRequest_written (r : Request) : (issueRequest r s).written = s.written := rfl
@[simp] theorem issueRequest_lastCmd (r : Request) : (issueRequest r s).lastCmd = s.lastCmd := rfl
@[simp] theorem issueRequest_chain (r : Request) : (issueRequest r s).chain = s.chain := rfl
@[simp] theorem issueRequest_host (r : Request) : (issueRequest r s).host = s.host ++ [r] := rfl
@[simp] theorem issueRequest_turns (r : Request) : (issueRequest r s).turns = s.turns := rfl
@[simp] theorem issueRequest_params (r : Request) : (issueRequest r s).params = s.params := rfl
@[simp] theorem issueRequest_draws (r : Request) : (issueRequest r s).draws = s.draws := rfl
@[simp] theorem issueRequest_n (r : Request) : (issueRequest r s).n = s.n := rfl

/-! ### nextTurn -/

@[simp] theorem nextTurn_rbuf : (nextTurn s).rbuf = s.rbuf := rfl
@[simp] theorem nextTurn_cfgN : (nextTurn s).cfgN = s.cfgN := rfl
@[simp] theorem nextTurn_freq : (nextTurn s).freq = s.freq := rfl
@[simp] theorem nextTurn_csN : (nextTurn s).csN = s.csN := rfl
@[simp] theorem nextTurn_phase : (nextTurn s).phase = s.phase := rfl
@[simp] theorem nextTurn_k : (nextTurn s).k = s.k := rfl
@[simp] theorem nextTurn_txn : (nextTurn s).txn = s.txn := rfl
@[simp] theorem nextTurn_curCmd : (nextTurn s).curCmd = s.curCmd := rfl
@[simp] theorem nextTurn_curOp : (nextTurn s).curOp = s.curOp := rfl
@[simp] theorem nextTurn_refused : (nextTurn s).refused = s.refused := rfl
@[simp] theorem nextTurn_refuseCode : (nextTurn s).refuseCode = s.refuseCode := rfl
@[simp] theorem nextTurn_resp : (nextTurn s).resp = s.resp := rfl
@[simp] theorem nextTurn_respDone : (nextTurn s).respDone = s.respDone := rfl
@[simp] theorem nextTurn_written : (nextTurn s).written = s.written := rfl
@[simp] theorem nextTurn_lastCmd : (nextTurn s).lastCmd = s.lastCmd := rfl
@[simp] theorem nextTurn_chain : (nextTurn s).chain = s.chain := rfl
@[simp] theorem nextTurn_host : (nextTurn s).host = s.host := rfl
@[simp] theorem nextTurn_turns : (nextTurn s).turns = s.turns.tail := rfl
@[simp] theorem nextTurn_params : (nextTurn s).params = s.params := rfl
@[simp] theorem nextTurn_draws : (nextTurn s).draws = s.draws := rfl
@[simp] theorem nextTurn_n : (nextTurn s).n = s.n := rfl

/-! ### idleStep -/

@[simp] theorem idleStep_rbuf : (idleStep s).rbuf = s.rbuf := rfl
@[simp] theorem idleStep_cfgN : (idleStep s).cfgN = s.cfgN := rfl
@[simp] theorem idleStep_freq : (idleStep s).freq = s.freq := rfl
@[simp] theorem idleStep_csN : (idleStep s).csN = s.csN := rfl
@[simp] theorem idleStep_phase : (idleStep s).phase = s.phase := rfl
@[simp] theorem idleStep_k : (idleStep s).k = s.k := rfl
@[simp] theorem idleStep_txn : (idleStep s).txn = s.txn := rfl
@[simp] theorem idleStep_curCmd : (idleStep s).curCmd = s.curCmd := rfl
@[simp] theorem idleStep_curOp : (idleStep s).curOp = s.curOp := rfl
@[simp] theorem idleStep_refused : (idleStep s).refused = s.refused := rfl
@[simp] theorem idleStep_refuseCode : (idleStep s).refuseCode = s.refuseCode := rfl
@[simp] theorem idleStep_resp : (idleStep s).resp = s.resp := rfl
@[simp] theorem idleStep_respDone : (idleStep s).respDone = false := rfl
@[simp] theorem idleStep_written : (idleStep s).written = s.written := rfl
@[simp] theorem idleStep_lastCmd : (idleStep s).lastCmd = s.lastCmd := rfl
@[simp] theorem idleStep_chain : (idleStep s).chain = s.chain := rfl
@[simp] theorem idleStep_host : (idleStep s).host = s.host := rfl
@[simp] theorem idleStep_turns : (idleStep s).turns = s.turns := rfl
@[simp] theorem idleStep_params : (idleStep s).params = s.params := rfl
@[simp] theorem idleStep_draws : (idleStep s).draws = s.draws := rfl
@[simp] theorem idleStep_n : (idleStep s).n = s.n := rfl

/-! ### clearBlock -/

@[simp] theorem clearBlock_rbuf : (clearBlock s).rbuf = [] := rfl
@[simp] theorem clearBlock_cfgN : (clearBlock s).cfgN = s.cfgN := rfl
@[simp] theorem clearBlock_freq : (clearBlock s).freq = Config.freqDefault := rfl
@[simp] theorem clearBlock_csN : (clearBlock s).csN = true := rfl
@[simp] theorem clearBlock_phase : (clearBlock s).phase = s.phase := rfl
@[simp] theorem clearBlock_k : (clearBlock s).k = 0 := rfl
@[simp] theorem clearBlock_txn : (clearBlock s).txn = .one := rfl
@[simp] theorem clearBlock_curCmd : (clearBlock s).curCmd = 0x0000#16 := rfl
@[simp] theorem clearBlock_curOp : (clearBlock s).curOp = none := rfl
@[simp] theorem clearBlock_refused : (clearBlock s).refused = s.refused := rfl
@[simp] theorem clearBlock_refuseCode : (clearBlock s).refuseCode = s.refuseCode := rfl
@[simp] theorem clearBlock_resp : (clearBlock s).resp = Resp.zero := rfl
@[simp] theorem clearBlock_respDone : (clearBlock s).respDone = false := rfl
@[simp] theorem clearBlock_written : (clearBlock s).written = false := rfl
@[simp] theorem clearBlock_lastCmd : (clearBlock s).lastCmd = none := rfl
@[simp] theorem clearBlock_chain : (clearBlock s).chain = s.chain := rfl
@[simp] theorem clearBlock_host : (clearBlock s).host = s.host := rfl
@[simp] theorem clearBlock_turns : (clearBlock s).turns = s.turns := rfl
@[simp] theorem clearBlock_params : (clearBlock s).params = s.params := rfl
@[simp] theorem clearBlock_draws : (clearBlock s).draws = s.draws := rfl
@[simp] theorem clearBlock_n : (clearBlock s).n = s.n := rfl

end

end Sys2Proof.Machine
end

