-- ==== Sys2Proof/Laws/Buffer.lean ====
section
/-! SUPPORT. The laws of the read buffer: reading after writing, and the canonical form, which every operation
keeps (spec/20_memory.md R50). -/

namespace Sys2Proof.Machine

theorem Buffer.get_put_same (i : Nat) (v : Word) (b : Buffer) : Buffer.get i (Buffer.put i v b) = some v := by
  induction b with
  | nil => simp [Buffer.put, Buffer.get]
  | cons c rest ih =>
    obtain ⟨j, w⟩ := c
    simp only [Buffer.put]
    split_ifs with h1 h2
    · simp [Buffer.get]
    · simp [Buffer.get]
    · simp [Buffer.get, Ne.symm h2, ih]

theorem Buffer.get_put_other {i a : Nat} (v : Word) (b : Buffer) (h : a ≠ i) :
    Buffer.get a (Buffer.put i v b) = Buffer.get a b := by
  induction b with
  | nil => simp [Buffer.put, Buffer.get, Ne.symm h]
  | cons c rest ih =>
    obtain ⟨j, w⟩ := c
    simp only [Buffer.put]
    split_ifs with h1 h2
    · simp [Buffer.get, Ne.symm h]
    · subst h2; simp [Buffer.get, Ne.symm h]
    · simp [Buffer.get, ih]

/-- The canonical form as a relation on pairs of cells. -/
theorem Buffer.wf_iff (b : Buffer) : Buffer.wf b = true ↔ b.Pairwise (fun x y => x.1 < y.1) := by
  induction b with
  | nil => simp [Buffer.wf]
  | cons c rest ih =>
    cases rest with
    | nil => simp [Buffer.wf]
    | cons d rest =>
      simp only [Buffer.wf, Bool.and_eq_true, decide_eq_true_eq, ih, List.pairwise_cons, List.mem_cons,
        forall_eq_or_imp]
      constructor
      · rintro ⟨hcd, hd, hr⟩
        exact ⟨⟨hcd, fun x hx => hcd.trans (hd x hx)⟩, hd, hr⟩
      · rintro ⟨⟨hcd, -⟩, hd, hr⟩
        exact ⟨hcd, hd, hr⟩

theorem Buffer.mem_put {i : Nat} {v : Word} {b : Buffer} {c : Nat × Word} (h : c ∈ Buffer.put i v b) :
    c = (i, v) ∨ c ∈ b := by
  induction b with
  | nil => simpa [Buffer.put] using h
  | cons d rest ih =>
    obtain ⟨j, w⟩ := d
    simp only [Buffer.put] at h
    split_ifs at h with h1 h2
    · simpa using h
    · rcases List.mem_cons.1 h with h | h
      · exact .inl h
      · exact .inr (List.mem_cons_of_mem _ h)
    · rcases List.mem_cons.1 h with h | h
      · exact .inr (h ▸ List.mem_cons_self)
      · exact (ih h).imp_right (List.mem_cons_of_mem _)

theorem Buffer.put_wf {b : Buffer} (i : Nat) (v : Word) (h : Buffer.wf b = true) :
    Buffer.wf (Buffer.put i v b) = true := by
  rw [Buffer.wf_iff] at h ⊢
  induction b with
  | nil => simp [Buffer.put]
  | cons c rest ih =>
    obtain ⟨j, w⟩ := c
    obtain ⟨hj, hr⟩ := List.pairwise_cons.1 h
    simp only [Buffer.put]
    split_ifs with h1 h2
    · refine List.pairwise_cons.2 ⟨fun x hx => ?_, h⟩
      rcases List.mem_cons.1 hx with rfl | hx
      · exact h1
      · exact h1.trans (hj x hx)
    · subst h2
      exact List.pairwise_cons.2 ⟨hj, hr⟩
    · refine List.pairwise_cons.2 ⟨fun x hx => ?_, ih hr⟩
      rcases Buffer.mem_put hx with rfl | hx
      · simp only; omega
      · exact hj x hx

theorem Buffer.put_within {n i : Nat} {b : Buffer} (v : Word) (hi : i < n) (h : Buffer.within n b) :
    Buffer.within n (Buffer.put i v b) := by
  intro c hc
  rcases Buffer.mem_put hc with rfl | hc
  · exact hi
  · exact h c hc

/-- Writing keeps the buffer canonical and within its N positions. -/
theorem BufferOk.writeWord {s : State} (h : BufferOk s) {i : Nat} (v : Word) (hi : i < s.n) :
    BufferOk (writeWord i v s) :=
  ⟨Buffer.put_wf i v h.1, Buffer.put_within v hi h.2⟩

theorem reset_bufferOk : BufferOk State.reset := ⟨rfl, fun _ h => by cases h⟩

/-! ### The words a transaction receives -/

theorem received_get (i j : Nat) (ds : List Device) :
    Buffer.get j (received i ds) = if i ≤ j then (ds[j - i]?).map Device.pend else none := by
  induction ds generalizing i with
  | nil => simp [received, Buffer.get]
  | cons d rest ih =>
    simp only [received, Buffer.get, ih]
    by_cases h : i = j
    · subst h; simp
    · by_cases h2 : i ≤ j
      · have h3 : j - i = (j - (i + 1)) + 1 := by omega
        rw [if_neg h, if_pos (by omega), if_pos h2, h3]; simp
      · simp [h, h2, show ¬ i + 1 ≤ j by omega]

theorem received_lt {i j : Nat} {ds : List Device} (h : i + ds.length ≤ j) : Buffer.within j (received i ds) := by
  induction ds generalizing i with
  | nil => exact fun c hc => by cases hc
  | cons d rest ih =>
    intro c hc
    rw [List.length_cons] at h
    rcases List.mem_cons.1 hc with rfl | hc
    · simp only; omega
    · exact ih (by omega) c hc

theorem received_wf (i : Nat) (ds : List Device) : Buffer.wf (received i ds) = true := by
  rw [Buffer.wf_iff]
  have key : (received i ds).Pairwise (fun x y => x.1 < y.1) ∧ ∀ c ∈ received i ds, i ≤ c.1 := by
    induction ds generalizing i with
    | nil => simp [received]
    | cons d rest ih =>
      obtain ⟨hr, hb⟩ := ih (i + 1)
      refine ⟨List.pairwise_cons.2 ⟨fun x hx => hb x hx, hr⟩, fun c hc => ?_⟩
      rcases List.mem_cons.1 hc with rfl | hc
      · exact le_rfl
      · exact (Nat.le_succ i).trans (hb c hc)
  exact key.1

theorem received_append (i : Nat) (a b : List Device) :
    received i (a ++ b) = received i a ++ received (i + a.length) b := by
  induction a generalizing i with
  | nil => rfl
  | cons d rest ih => simp [received, ih, Nat.add_assoc, Nat.add_comm 1]

/-- Writing above a run of lower cells leaves that run as it is. -/
theorem Buffer.put_above {i : Nat} (v : Word) {a : Buffer} (b : Buffer) (h : Buffer.within i a) :
    Buffer.put i v (a ++ b) = a ++ Buffer.put i v b := by
  induction a with
  | nil => rfl
  | cons c rest ih =>
    obtain ⟨j, w⟩ := c
    have hj : j < i := h _ List.mem_cons_self
    rw [List.cons_append, Buffer.put, if_neg (by omega), if_neg (by omega),
      ih fun c hc => h c (List.mem_cons_of_mem _ hc)]
    rfl

end Sys2Proof.Machine
end

