-- ==== Sys2Proof/Laws/Chain.lean ====
section
/-! SUPPORT. The device chain's two updates position by position: a latch (spec/41_transaction_executor.md R143)
and free values (R144). -/

namespace Sys2Proof.Machine

@[simp] theorem latched_length (c : Word) (k ch : Nat) (ds : List Device) :
    (latched c k ch ds).length = ds.length := by
  induction ds generalizing k ch with
  | nil => rfl
  | cons d rest ih => simp [latched, ih]

theorem latched_get (c : Word) (k ch i : Nat) (ds : List Device) :
    (latched c k ch ds)[i]? =
      if i < ds.length then some ⟨Config.sensorResp (k + i) c (ch + i), some c⟩ else none := by
  induction ds generalizing k ch i with
  | nil => simp [latched]
  | cons d rest ih =>
    cases i with
    | zero => simp [latched]
    | succ i => simp [latched, ih, Nat.add_assoc, Nat.add_comm 1]

theorem latched_mem {c : Word} {k ch : Nat} {ds : List Device} {d : Device} (h : d ∈ latched c k ch ds) :
    d.pendCmd = some c := by
  induction ds generalizing k ch with
  | nil => cases h
  | cons e rest ih =>
    rcases List.mem_cons.1 h with rfl | h
    · rfl
    · exact ih h

@[simp] theorem drawnChain_length (n : Nat) (ds : List Device) : (drawnChain n ds).length = ds.length := by
  induction ds generalizing n with
  | nil => rfl
  | cons d rest ih => simp [drawnChain, ih]

theorem drawnChain_get (n i : Nat) (ds : List Device) :
    (drawnChain n ds)[i]? = if i < ds.length then some ⟨Config.draw16 (n + i), none⟩ else none := by
  induction ds generalizing n i with
  | nil => simp [drawnChain]
  | cons d rest ih =>
    cases i with
    | zero => simp [drawnChain, drawnDevice]
    | succ i => simp [drawnChain, ih, Nat.add_assoc, Nat.add_comm 1]

theorem drawnChain_mem {n : Nat} {ds : List Device} {d : Device} (h : d ∈ drawnChain n ds) :
    d.pendCmd = none := by
  induction ds generalizing n with
  | nil => cases h
  | cons e rest ih =>
    rcases List.mem_cons.1 h with rfl | h
    · rfl
    · exact ih h

end Sys2Proof.Machine
end

