-- ==== Sys2Proof/Laws/Decode.lean ====
section
/-! SUPPORT. The fields of a packed request word, and the shape of an accepted one (spec/30_encoding.md R80,
R81). -/

namespace Sys2Proof

section
variable (op : Op) (csel : BitVec 3) (idx : BitVec 8) (word : Word) (hz : BitVec 32)

@[simp] theorem fieldOp_pack : fieldOp (packRequest op csel idx word hz) = opCode op := by
  ext i hi
  interval_cases i <;> simp [fieldOp, packRequest]

@[simp] theorem fieldCsel_pack : fieldCsel (packRequest op csel idx word hz) = csel := by
  ext i hi
  interval_cases i <;> simp [fieldCsel, packRequest]

@[simp] theorem fieldRsv_pack : fieldRsv (packRequest op csel idx word hz) = 0#1 := by
  ext i hi
  interval_cases i
  simp [fieldRsv, packRequest]

@[simp] theorem fieldIdx_pack : fieldIdx (packRequest op csel idx word hz) = idx := by
  ext i hi
  interval_cases i <;> simp [fieldIdx, packRequest]

@[simp] theorem fieldWord_pack : fieldWord (packRequest op csel idx word hz) = word := by
  ext i hi
  interval_cases i <;> simp [fieldWord, packRequest]

@[simp] theorem fieldHz_pack : fieldHz (packRequest op csel idx word hz) = hz := by
  ext i hi
  interval_cases i <;> simp [fieldHz, packRequest]

end

/-- A request word is its fields and nothing else. -/
theorem pack_fields (op : Op) (w : ReqWord) (hop : fieldOp w = opCode op) (hr : fieldRsv w = 0#1) :
    packRequest op (fieldCsel w) (fieldIdx w) (fieldWord w) (fieldHz w) = w := by
  have h7 : w.getLsbD 7 = false := by
    have := congrArg (fun x => x.getLsbD 0) hr
    simpa [fieldRsv] using this
  ext i hi
  simp only [packRequest, ← hop]
  interval_cases i <;> simp [fieldOp, fieldCsel, fieldIdx, fieldWord, fieldHz]
  simpa using h7

@[simp] theorem opOfCode_opCode (op : Op) : opOfCode (opCode op) = some op := by cases op <;> rfl

theorem opCode_of_opOfCode {c : BitVec 4} {op : Op} (h : opOfCode c = some op) : c = opCode op := by
  revert c; cases op <;> decide

/-- Every accepted request: its opcode names an operation, its unused fields are clear, its selector is legal. -/
theorem decodeRequest_accept {w : ReqWord} {len : Nat} {i : Instr} :
    decodeRequest w len = .accept i ↔
      ∃ op, opOfCode (fieldOp w) = some op ∧ unusedClear op w len = true ∧
        (usesCsel op = true → cselOk (fieldCsel w) = true) ∧ instrOf op w = i := by
  unfold decodeRequest
  cases h : opOfCode (fieldOp w) with
  | none => simp
  | some op =>
    cases h1 : unusedClear op w len <;> cases h2 : usesCsel op <;> cases h3 : cselOk (fieldCsel w) <;>
      simp [h1, h2]

/-- A request is rejected with one of the first three codes only. -/
theorem decodeRequest_reject {w : ReqWord} {len : Nat} {code : RefuseCode}
    (h : decodeRequest w len = .reject code) : code = .rsvdOp ∨ code = .rsvdField ∨ code = .rsvdCsel := by
  unfold decodeRequest at h
  split at h
  · simp_all
  · split_ifs at h <;> simp_all

end Sys2Proof
end

