-- ==== Sys2Proof/Laws/Ops.lean ====
section
/-! SUPPORT. What each shared operation can do, said once; the provers cite these instead of unfolding it. -/

namespace Sys2Proof.Machine

/-! ### Reading the buffer -/

theorem readWord_written {i : Nat} {s : State} {w : Word} (h : Buffer.get i s.rbuf = some w) :
    readWord i s = (w, s) := by simp [readWord, h]

theorem readWord_unwritten {i : Nat} {s : State} (h : Buffer.get i s.rbuf = none) :
    readWord i s = (Config.draw16 s.draws, useDraw s) := by simp [readWord, h]

/-- Reading changes at most the count of free values. -/
theorem readWord_state (i : Nat) (s : State) :
    (readWord i s).2 = { s with draws := (readWord i s).2.draws } := by
  unfold readWord
  split <;> rfl

theorem readWords_state (i count : Nat) (s : State) :
    (readWords i count s).2 = { s with draws := (readWords i count s).2.draws } := by
  induction count generalizing i s with
  | zero => rfl
  | succ count ih =>
    simp only [readWords]
    rw [ih, readWord_state]

/-- Where every word read is written, reading gives those words and changes nothing. -/
theorem readWords_written {i count : Nat} {s : State}
    (h : ∀ j, i ≤ j → j < i + count → (Buffer.get j s.rbuf).isSome = true) :
    readWords i count s = ((List.range' i count).map (fun j => (Buffer.get j s.rbuf).getD 0#16), s) := by
  induction count generalizing i with
  | zero => rfl
  | succ count ih =>
    obtain ⟨w, hw⟩ := Option.isSome_iff_exists.1 (h i le_rfl (by omega))
    have hr := ih (i := i + 1) fun j h1 h2 => h j (by omega) (by omega)
    simp [readWords, readWord_written hw, hr, List.range'_succ, hw]

/-! ### The exchange -/

/-- In a chain of N devices the word received is the pending word, and no free value is used. -/
theorem exchangeWord_fits {k : Nat} {s : State} {d : Device} (h : s.chain.length = s.n)
    (hd : s.chain[k]? = some d) : exchangeWord k s = (d.pend, s) := by
  simp [exchangeWord, h, hd]

/-- In a chain of another length the word received is a free value. -/
theorem exchangeWord_misfit {k : Nat} {s : State} (h : s.chain.length ≠ s.n) :
    exchangeWord k s = (Config.draw16 s.draws, useDraw s) := by
  simp [exchangeWord, h]

/-- An exchange changes at most the count of free values besides the word it gives. -/
theorem exchangeWord_state (k : Nat) (s : State) :
    (exchangeWord k s).2 = { s with draws := (exchangeWord k s).2.draws } := by
  unfold exchangeWord
  split <;> rfl

/-- The latch keeps the chain's length and everything outside the chain and the count of free values. -/
theorem latchChain_cases (c : Word) (s : State) :
    (s.chain.length = s.n ∧ latchChain c s =
      { s with chain := latched c 0 s.draws s.chain, draws := s.draws + s.chain.length }) ∨
    (s.chain.length ≠ s.n ∧ latchChain c s =
      { s with chain := drawnChain s.draws s.chain, draws := s.draws + s.chain.length }) := by
  unfold latchChain
  split_ifs with h
  · exact .inl ⟨h, rfl⟩
  · exact .inr ⟨h, rfl⟩

/-- The end of a window: every field it writes, whatever the chain holds. -/
theorem endWindow_eq (c : Word) (s : State) : ∃ ch : List Device,
    endWindow c s = { s with
      k := s.n, written := true, csN := true, phase := .recover, lastCmd := some c, respDone := false
      chain := ch, draws := s.draws + s.chain.length } ∧
    ch.length = s.chain.length ∧ (∀ d ∈ ch, d.pendCmd = none ∨ d.pendCmd = some c) ∧
    (s.chain.length = s.n → ch = latched c 0 s.draws s.chain) := by
  rcases latchChain_cases c (driveCs true s) with ⟨h, e⟩ | ⟨h, e⟩
  · exact ⟨latched c 0 s.draws s.chain, by simp [endWindow, e], by simp,
      fun d hd => .inr (latched_mem hd), fun _ => rfl⟩
  · exact ⟨drawnChain s.draws s.chain, by simp [endWindow, e], by simp,
      fun d hd => .inl (drawnChain_mem hd), fun h' => absurd h' h⟩

/-- Everything an exchange can do: stop, go on to the next position, or close the window. -/
theorem exchange_cases (c : Word) (s : State) :
    (s.n ≤ s.k ∧ exchange c s = .fault .noTransition) ∨
    (∃ (rx : Word) (d : Nat), s.k + 1 < s.n ∧ exchange c s = .next { s with
      rbuf := Buffer.put s.k rx s.rbuf, k := s.k + 1, respDone := false, draws := d }) ∨
    (∃ (rx : Word) (d : Nat) (ch : List Device), s.k + 1 = s.n ∧ ch.length = s.chain.length ∧
      (∀ x ∈ ch, x.pendCmd = none ∨ x.pendCmd = some c) ∧
      exchange c s = .next { s with
        rbuf := Buffer.put s.k rx s.rbuf, k := s.n, written := true, csN := true, phase := .recover
        lastCmd := some c, respDone := false, chain := ch, draws := d }) := by
  by_cases h : s.k < s.n
  · right
    have hx := exchangeWord_state s.k s
    generalize hy : exchangeWord s.k s = p at hx
    obtain ⟨rx, s1⟩ := p
    simp only at hx
    generalize s1.draws = d at hx
    subst hx
    by_cases h2 : s.k + 1 < s.n
    · exact .inl ⟨rx, d, h2, by simp [exchange, h, hy, h2, writeWord]⟩
    · right
      obtain ⟨ch, e, hl, hm, -⟩ := endWindow_eq c (writeWord s.k rx { s with draws := d })
      refine ⟨rx, d + s.chain.length, ch, by omega, hl, hm, ?_⟩
      simp only [exchange, h, if_true, hy, h2, if_false, e]
      rfl
  · exact .inl ⟨by omega, by simp [exchange, h]⟩

/-- The exchange in a chain of N devices, before the last. -/
theorem exchange_goes_on {s : State} {d : Device} (c : Word) (hl : s.chain.length = s.n)
    (hd : s.chain[s.k]? = some d) (h : s.k + 1 < s.n) :
    exchange c s = .next { s with
      rbuf := Buffer.put s.k d.pend s.rbuf, k := s.k + 1, respDone := false } := by
  simp [exchange, show s.k < s.n by omega, exchangeWord_fits hl hd, h, writeWord]

/-- The last exchange in a chain of N devices. -/
theorem exchange_closes {s : State} {d : Device} (c : Word) (hl : s.chain.length = s.n)
    (hd : s.chain[s.k]? = some d) (h : s.k + 1 = s.n) :
    exchange c s = .next { s with
      rbuf := Buffer.put s.k d.pend s.rbuf, k := s.n, written := true, csN := true, phase := .recover
      lastCmd := some c, respDone := false, chain := latched c 0 s.draws s.chain
      draws := s.draws + s.chain.length } := by
  obtain ⟨ch, e, -, -, hch⟩ := endWindow_eq c (writeWord s.k d.pend s)
  simp only [exchange, show s.k < s.n by omega, if_true, exchangeWord_fits hl hd,
    show ¬ s.k + 1 < s.n by omega, if_false, e, hch hl]
  rfl

/-! ### The command words -/

/-- A command word's meaning is an exchange of the ROM's word. -/
theorem exec_cmdInstr (c : Cmd) (s : State) : exec (cmdInstr c) s = exchange (romWord s.params.rom c) s := by
  cases c <;> rfl

/-- A decoded command word is in the ROM, under that command. -/
theorem decodeCommand_word {rom : Rom} {w : Word} {c : Cmd} (h : decodeCommand rom w = some c) :
    romWord rom c = w := by
  simpa using List.find?_some h

/-- In SHIFT the step exchanges `CUR_CMD`. -/
theorem stepShift_eq (s : State) : stepShift s = exchange s.curCmd s := by
  unfold stepShift currentCommand
  split
  · rename_i c h
    rw [exec_cmdInstr, decodeCommand_word h]
  · rfl

/-! ### RECOVER -/

/-- Everything the end of the recovery delay can do. -/
theorem endRecover_cases (s : State) :
    (s.txn = .one ∧ (s.curOp = some .read ∨ s.curOp = some .readAngle) ∧ endRecover s = { s with
      txn := .two, curCmd := s.params.rom.nop, csN := false, phase := .setup, respDone := false }) ∨
    (hasSecond s = false ∧ s.curOp ≠ none ∧ endRecover s = { s with
      phase := .idle, resp := { s.resp with view := true }, respDone := true }) ∨
    (s.curOp = none ∧ endRecover s = { s with phase := .idle, respDone := false }) := by
  by_cases h : hasSecond s = true
  · left
    have h' := h
    simp only [hasSecond, Bool.and_eq_true, beq_iff_eq, Bool.or_eq_true] at h'
    exact ⟨h'.1, h'.2, by simp [endRecover, h, beginTransaction, driveCs]⟩
  · right
    cases ho : s.curOp with
    | none => exact .inr ⟨rfl, by simp [endRecover, h, ho]⟩
    | some op => exact .inl ⟨by simpa using h, by simp, by simp [endRecover, h, ho, completeView, complete]⟩

/-! ### The diagnostics bits -/

/-- A mask of `DIAGMASK` lies in the payload and is one bit, whatever the parameter is. -/
theorem bitMask_payload (b : Fin 14) : payload (bitMask b) = bitMask b ∧ popcount (bitMask b) = 1 := by
  revert b
  decide

/-! ### Reset -/

/-- Everything a reset can do: the cleared block, with a legal N or as an invalid construction, and a chain of the
same length, which is the chain itself but where a window was open. -/
theorem resetBlock_cases (n : Nat) (s : State) : ∃ (ch : List Device) (d : Nat),
    ch.length = s.chain.length ∧ (windowOpen s = false → ch = s.chain ∧ d = s.draws) ∧
    (windowOpen s = true → ch = drawnChain s.draws s.chain ∧ d = s.draws + s.chain.length) ∧
    ((1 ≤ n ∧ n ≤ Config.nMax ∧ resetBlock n s = { clearBlock s with
        chain := ch, draws := d, cfgN := BitVec.ofNat 8 n, phase := .recover, refused := false
        refuseCode := .none }) ∨
      ((n = 0 ∨ Config.nMax < n) ∧ resetBlock n s = { clearBlock s with
        chain := ch, draws := d, cfgN := 0#8, phase := .idle, refused := true
        refuseCode := .cfgN })) := by
  by_cases hw : windowOpen s = true
  · refine ⟨drawnChain s.draws s.chain, s.draws + s.chain.length, by simp, by simp [hw], fun _ => ⟨rfl, rfl⟩, ?_⟩
    by_cases h : 1 ≤ n ∧ n ≤ Config.nMax
    · exact .inl ⟨h.1, h.2, by simp only [resetBlock, hw, h, if_true]; rfl⟩
    · exact .inr ⟨by omega, by simp only [resetBlock, hw, h, if_true, if_false]; rfl⟩
  · refine ⟨s.chain, s.draws, rfl, fun _ => ⟨rfl, rfl⟩, fun h => absurd h hw, ?_⟩
    rw [Bool.not_eq_true] at hw
    by_cases h : 1 ≤ n ∧ n ≤ Config.nMax
    · exact .inl ⟨h.1, h.2, by simp only [resetBlock, hw, h]; rfl⟩
    · exact .inr ⟨by omega, by simp only [resetBlock, hw, h]; rfl⟩

/-! ### Bus requests -/

theorem enc_legal {csel : BitVec 3} (rom : Rom) (h : csel.toNat < 5) :
    ∃ c : Cmd, cmdTable[csel.toNat]? = some c ∧ enc rom csel = some (romWord rom c) := by
  have h5 : csel.toNat < cmdTable.length := h
  exact ⟨cmdTable[csel.toNat], List.getElem?_eq_getElem h5, by
    simp [enc, cmdOfCsel, List.getElem?_eq_getElem h5]⟩

theorem enc_reserved {csel : BitVec 3} (rom : Rom) (h : 5 ≤ csel.toNat) : enc rom csel = none := by
  simp [enc, cmdOfCsel, cmdTable, h]

theorem takeSelected_legal {s : State} {op : Op} {csel : BitVec 3} {c : Word}
    (h : enc s.params.rom csel = some c) : takeSelected op csel s = .next (takeBusRequest op c s) := by
  simp [takeSelected, h]

theorem takeSelected_reserved {s : State} {op : Op} {csel : BitVec 3}
    (h : enc s.params.rom csel = none) : takeSelected op csel s = .next (refuse .rsvdCsel s) := by
  simp [takeSelected, h]

theorem enc_angle (rom : Rom) : enc rom 4#3 = some rom.angle := rfl
theorem enc_nop (rom : Rom) : enc rom 0#3 = some rom.nop := rfl

end Sys2Proof.Machine
end

