-- ==== Sys2Proof/Laws/PerInstr.lean ====
section
/-! SUPPORT. Families of lemmas with one lemma per instruction. -/

namespace Sys2Proof.Laws.EncodingForm

/-- The form of an instruction's words: a request word whose reserved bit is 0 and whose opcode names an
operation that takes the instruction's operands from it, or a command word of the default ROM
(spec/30_encoding.md R80, R87, spec/40_command_encoder.md R103). -/
def Statement (i : Instr) : Prop :=
  match encode i with
  | .request w => fieldRsv w = 0#1 ∧ ∃ op, opOfCode (fieldOp w) = some op ∧ instrOf op w = i
  | .command w => ∃ c, romWord defaultRom c = w ∧ cmdInstr c = i

theorem of_pack {i : Instr} {op : Op} {csel : BitVec 3} {idx : BitVec 8} {word : Word} {hz : BitVec 32}
    (he : encode i = .request (packRequest op csel idx word hz))
    (hi : instrOf op (packRequest op csel idx word hz) = i) : Statement i := by
  unfold Statement
  rw [he]
  exact ⟨fieldRsv_pack .., op, by rw [fieldOp_pack, opOfCode_opCode], hi⟩

theorem exec (csel : BitVec 3) : Statement (.exec csel) :=
  of_pack rfl (congrArg Instr.exec (fieldCsel_pack ..))
theorem read (csel : BitVec 3) : Statement (.read csel) :=
  of_pack rfl (congrArg Instr.read (fieldCsel_pack ..))
theorem readSeq (csel : BitVec 3) : Statement (.readSeq csel) :=
  of_pack rfl (congrArg Instr.readSeq (fieldCsel_pack ..))
theorem readAngle : Statement .readAngle := of_pack rfl rfl
theorem readAngleSeq : Statement .readAngleSeq := of_pack rfl rfl
theorem rdbuf (idx : BitVec 8) : Statement (.rdbuf idx) :=
  of_pack rfl (congrArg Instr.rdbuf (fieldIdx_pack ..))
theorem setfreq (hz : BitVec 32) : Statement (.setfreq hz) :=
  of_pack rfl (congrArg Instr.setfreq (fieldHz_pack ..))
theorem mask (w : Word) : Statement (.mask w) := of_pack rfl (congrArg Instr.mask (fieldWord_pack ..))
theorem maskb (n : BitVec 8) : Statement (.maskb n) :=
  of_pack rfl (congrArg Instr.maskb (fieldIdx_pack ..))
theorem parity (w : Word) : Statement (.parity w) :=
  of_pack rfl (congrArg Instr.parity (fieldWord_pack ..))
theorem errIdx (idx : BitVec 8) : Statement (.errIdx idx) :=
  of_pack rfl (congrArg Instr.errIdx (fieldIdx_pack ..))
theorem errAny : Statement .errAny := of_pack rfl rfl
theorem deg (w : Word) : Statement (.deg w) := of_pack rfl (congrArg Instr.deg (fieldWord_pack ..))
theorem rad (w : Word) : Statement (.rad w) := of_pack rfl (congrArg Instr.rad (fieldWord_pack ..))
theorem cmdNop : Statement .cmdNop := ⟨.nop, rfl, rfl⟩
theorem cmdClrerr : Statement .cmdClrerr := ⟨.clrerr, rfl, rfl⟩
theorem cmdDiag : Statement .cmdDiag := ⟨.diag, rfl, rfl⟩
theorem cmdMag : Statement .cmdMag := ⟨.mag, rfl, rfl⟩
theorem cmdAngle : Statement .cmdAngle := ⟨.angle, rfl, rfl⟩

end Sys2Proof.Laws.EncodingForm
end

