-- ==== Sys2Proof/Laws/Step.lean ====
section
/-! SUPPORT. Everything a step can do, said once: the provers split along these cases. -/

namespace Sys2Proof.Machine

/-! ### What stands on the port -/

theorem portRequest_none {s : State} (h : s.host = []) : portRequest s = none := by simp [portRequest, h]

theorem portRequest_offers {s : State} {r : Request} (h : Offers r s) :
    portRequest s = some (decodeRequest r.word r.vec.length) := by
  obtain ⟨-, h3, h4⟩ := h
  cases hh : s.host with
  | nil => simp [hh] at h4
  | cons q rest =>
    simp only [hh, List.head?_cons, Option.some.injEq] at h4
    simp [portRequest, hh, h3, h4]

theorem portRequest_invalid {s : State} (h : s.refuseCode = .cfgN) (hh : s.host ≠ []) :
    portRequest s = some (.reject .cfgN) := by
  cases hs : s.host with
  | nil => exact absurd hs hh
  | cons q rest => simp [portRequest, hs, h]

/-- An accepted request comes from a block that offers it. -/
theorem portRequest_accept {s : State} {i : Instr} (hp : s.phase = .idle)
    (h : portRequest s = some (.accept i)) :
    ∃ r, Offers r s ∧ decodeRequest r.word r.vec.length = .accept i := by
  unfold portRequest at h
  split at h
  · cases h
  · rename_i r rest hs
    split_ifs at h with hc
    · simp at h
    · exact ⟨r, ⟨hp, hc, by simp [hs]⟩, Option.some.inj h⟩

@[simp] theorem portRequest_nextTurn (s : State) : portRequest (nextTurn s) = portRequest s := rfl

/-! ### Whose turn it is -/

theorem nextTurn_quiet {s : State} (h : Quiet s) : nextTurn s = s := by
  cases s
  cases h
  rfl

theorem Quiet.blockMoves {s : State} (h : Quiet s) : BlockMoves s := .inl h

theorem step_block {s : State} (h : BlockMoves s) : step s = blockStep (nextTurn s) := by
  rcases h with h | h <;> simp [step, h, takeTurn]

theorem step_quiet {s : State} (h : Quiet s) : step s = blockStep s := by
  rw [step_block (.inl h), nextTurn_quiet h]

theorem step_issue {s : State} {r : Request} (h : s.turns.head? = some (.issue r)) :
    step s = .next (issueRequest r (nextTurn s)) := by simp [step, h, takeTurn]

theorem step_reset {s : State} {n : Nat} (h : s.turns.head? = some (.reset n)) :
    step s = .next (resetBlock n (nextTurn s)) := by simp [step, h, takeTurn]

theorem step_powerUp {s : State} (h : s.turns.head? = some .powerUp) :
    step s = .next (powerUpChain (nextTurn s)) := by simp [step, h, takeTurn]

/-- Everything a step can do, by the agent that moves. -/
theorem step_turn (s : State) :
    (∃ n, s.turns.head? = some (.reset n) ∧ step s = .next (resetBlock n (nextTurn s))) ∨
    (s.turns.head? = some .powerUp ∧ step s = .next (powerUpChain (nextTurn s))) ∨
    (∃ r, s.turns.head? = some (.issue r) ∧ step s = .next (issueRequest r (nextTurn s))) ∨
    (BlockMoves s ∧ step s = blockStep (nextTurn s)) := by
  cases h : s.turns.head? with
  | none =>
    have hq : s.turns = [] := List.head?_eq_none_iff.1 h
    exact .inr (.inr (.inr ⟨.inl hq, step_block (.inl hq)⟩))
  | some e =>
    cases e with
    | block => exact .inr (.inr (.inr ⟨.inr h, step_block (.inr h)⟩))
    | issue r => exact .inr (.inr (.inl ⟨r, rfl, step_issue h⟩))
    | reset n => exact .inl ⟨n, rfl, step_reset h⟩
    | powerUp => exact .inr (.inl ⟨rfl, step_powerUp h⟩)

/-! ### The rows of the block's step -/

theorem blockStep_idle {s : State} (h : s.phase = .idle) : blockStep s = stepIdle s := by simp [blockStep, h]

theorem blockStep_setup {s : State} (h : s.phase = .setup) : blockStep s = .next (endSetup s) := by
  simp [blockStep, h]

theorem blockStep_shift {s : State} (h : s.phase = .shift) : blockStep s = exchange s.curCmd s := by
  simp [blockStep, h, stepShift_eq]

theorem blockStep_recover {s : State} (h : s.phase = .recover) : blockStep s = .next (endRecover s) := by
  simp [blockStep, h]

/-- Everything the block's step can do. -/
theorem blockStep_cases (s : State) :
    (s.phase = .idle ∧ portRequest s = none ∧ blockStep s = .next (idleStep s)) ∨
    (∃ i, s.phase = .idle ∧ portRequest s = some (.accept i) ∧ blockStep s = retire (exec i s)) ∨
    (∃ code, s.phase = .idle ∧ portRequest s = some (.reject code) ∧
      blockStep s = .next (popRequest (refuse code s))) ∨
    (s.phase = .setup ∧ blockStep s = .next (endSetup s)) ∨
    (s.phase = .shift ∧ blockStep s = exchange s.curCmd s) ∨
    (s.phase = .recover ∧ blockStep s = .next (endRecover s)) := by
  cases hp : s.phase with
  | idle =>
    have hs := blockStep_idle hp
    unfold stepIdle at hs
    cases ho : portRequest s with
    | none => exact .inl ⟨rfl, rfl, by simpa [ho] using hs⟩
    | some d =>
      cases d with
      | accept i => exact .inr (.inl ⟨i, rfl, rfl, by simpa [ho] using hs⟩)
      | reject code => exact .inr (.inr (.inl ⟨code, rfl, rfl, by simpa [ho, retire] using hs⟩))
  | setup => exact .inr (.inr (.inr (.inl ⟨rfl, blockStep_setup hp⟩)))
  | shift => exact .inr (.inr (.inr (.inr (.inl ⟨rfl, blockStep_shift hp⟩))))
  | recover => exact .inr (.inr (.inr (.inr (.inr ⟨rfl, blockStep_recover hp⟩))))

/-- A retired answer is a next state exactly when the instruction's is. -/
theorem retire_next {x : Result} {t : State} (h : retire x = .next t) :
    ∃ u, x = .next u ∧ t = popRequest u := by
  cases x <;> simp_all [retire]

/-! ### What an accepted request can do in its step -/

/-- Everything a request's step can do: take a bus request with a ROM word, refuse, set the frequency, or
complete with a new `RESP`, at the cost of some free values at most. -/
theorem exec_request_cases {i : Instr} {w : ReqWord} {len : Nat} (h : decodeRequest w len = .accept i)
    (s : State) :
    (∃ op c, c ∈ romWords s.params.rom ∧ 1 ≤ transactionsOf op ∧
      exec i s = .next (takeBusRequest op c s)) ∨
    (∃ code, (code = .rsvdCsel ∨ code = .idxRange ∨ code = .lenRange ∨ code = .freqRange) ∧
      exec i s = .next (refuse code s)) ∨
    (∃ hz, i = .setfreq hz ∧ 1 ≤ hz.toNat ∧ hz.toNat ≤ Config.freqMax ∧
      exec i s = .next { s with freq := hz, resp := { s.resp with view := false }, respDone := true }) ∨
    (∃ r d, (r.vec = s.resp.vec ∨ r.vec.length = (portVec s).length) ∧
      exec i s = .next { s with resp := r, respDone := true, draws := d }) := by
  have bus : ∀ op csel, 1 ≤ transactionsOf op →
      (∃ op' c, c ∈ romWords s.params.rom ∧ 1 ≤ transactionsOf op' ∧
        takeSelected op csel s = .next (takeBusRequest op' c s)) ∨
      (∃ code, (code = .rsvdCsel ∨ code = .idxRange ∨ code = .lenRange ∨ code = .freqRange) ∧
        takeSelected op csel s = .next (refuse code s)) := by
    intro op csel hop
    by_cases hc : csel.toNat < 5
    · obtain ⟨c, -, he⟩ := enc_legal s.params.rom hc
      exact .inl ⟨op, _, by cases c <;> simp [romWords, cmdTable, romWord], hop, takeSelected_legal he⟩
    · exact .inr ⟨.rsvdCsel, .inl rfl, takeSelected_reserved (enc_reserved _ (by omega))⟩
  have val : ∀ v, (∃ r d, (r.vec = s.resp.vec ∨ r.vec.length = (portVec s).length) ∧
      (Host.Outcome.next (completeVal v s) : Result) = .next { s with resp := r, respDone := true, draws := d }) :=
    fun v => ⟨{ s.resp with val := v, view := false }, s.draws, .inl rfl, rfl⟩
  have maskLen : ∀ n ws, (maskFirst n ws).length = ws.length := by
    intro n ws
    induction ws generalizing n with
    | nil => cases n <;> rfl
    | cons w ws ih => cases n <;> simp [maskFirst, ih]
  cases i with
  | exec csel => exact (bus .exec csel le_rfl).imp_right .inl
  | read csel => exact (bus .read csel (by decide)).imp_right .inl
  | readSeq csel => exact (bus .readSeq csel le_rfl).imp_right .inl
  | readAngle => exact (bus .readAngle 4#3 (by decide)).imp_right .inl
  | readAngleSeq => exact (bus .readAngleSeq 4#3 le_rfl).imp_right .inl
  | rdbuf idx =>
    right
    simp only [exec, execRdbuf]
    split_ifs with hi
    · exact .inl ⟨.idxRange, .inr (.inl rfl), rfl⟩
    · right; right
      have hw := readWord_state idx.toNat s
      generalize readWord idx.toNat s = p at hw
      obtain ⟨w, s1⟩ := p
      simp only at hw
      generalize s1.draws = d at hw
      subst hw
      exact ⟨{ s.resp with val := w, view := false }, d, .inl rfl, rfl⟩
  | setfreq hz =>
    right
    simp only [exec, execSetfreq]
    split_ifs with hf
    · exact .inl ⟨.freqRange, .inr (.inr (.inr rfl)), rfl⟩
    · exact .inr (.inl ⟨hz, rfl, by omega, by omega, rfl⟩)
  | mask w => exact .inr (.inr (.inr (val _)))
  | maskb n =>
    right
    simp only [exec, execMaskb]
    split_ifs with hl
    · exact .inl ⟨.lenRange, .inr (.inr (.inl rfl)), rfl⟩
    · exact .inr (.inr ⟨{ s.resp with vec := maskFirst n.toNat (portVec s), view := false }, s.draws,
        .inr (maskLen _ _), rfl⟩)
  | parity w =>
    exact .inr (.inr (.inr ⟨{ s.resp with flag := parityOk w, view := false }, s.draws, .inl rfl, rfl⟩))
  | errIdx idx =>
    right; right; right
    simp only [exec, execErrIdx]
    split_ifs with hi
    · have hw := readWord_state idx.toNat s
      generalize readWord idx.toNat s = p at hw
      obtain ⟨w, s1⟩ := p
      simp only at hw
      generalize s1.draws = d at hw
      subst hw
      exact ⟨{ s.resp with flag := errorFlag w, view := false }, d, .inl rfl, rfl⟩
    · exact ⟨{ s.resp with flag := false, view := false }, s.draws, .inl rfl, rfl⟩
  | errAny =>
    right; right; right
    simp only [exec, execErrAny]
    have hw := readWords_state 0 s.n s
    generalize readWords 0 s.n s = p at hw
    obtain ⟨ws, s1⟩ := p
    simp only at hw
    generalize s1.draws = d at hw
    subst hw
    exact ⟨{ s.resp with flag := anyError ws, view := false }, d, .inl rfl, rfl⟩
  | deg w => exact .inr (.inr (.inr (val _)))
  | rad w => exact .inr (.inr (.inr (val _)))
  | cmdNop | cmdClrerr | cmdDiag | cmdMag | cmdAngle =>
    obtain ⟨op, -, -, -, h⟩ := decodeRequest_accept.1 h
    cases op <;> simp [instrOf] at h

end Sys2Proof.Machine
end

