-- ==== Sys2Proof/Laws/Run.lean ====
section
/-! SUPPORT. Runs of several steps: how they begin and how they join. -/

namespace Sys2Proof.Machine

/-- The run of Safety.lean is the host's run of the core. -/
theorem run_eq_core (k : Nat) (s : State) : run k s = Host.Core.run core k s := by
  induction k generalizing s with
  | zero => rfl
  | succ k ih =>
    have h : core.step s = step s := rfl
    simp only [run, Host.Core.run, h]
    cases step s with
    | next t => exact ih t
    | fault f => rfl
    | refused r => rfl

@[simp] theorem run_zero (s : State) : run 0 s = .next s := rfl

theorem run_succ {s t : State} (k : Nat) (h : step s = .next t) : run (k + 1) s = run k t := by
  simp [run, h]

/-- A run of `m` steps, then one of `k`. -/
theorem run_add {s t : State} (m k : Nat) (h : run m s = .next t) : run (m + k) s = run k t := by
  induction m generalizing s with
  | zero =>
    cases h
    rw [Nat.zero_add]
  | succ m ih =>
    simp only [run] at h
    cases e : step s with
    | next u =>
      rw [e] at h
      rw [Nat.succ_add, run_succ _ e, ih h]
    | fault f => simp [e] at h
    | refused r => simp [e] at h

end Sys2Proof.Machine
end

