-- ==== Sys2Proof/Tests/Slice0.lean ====
section
/-! SUPPORT. Tests on fixed values, all from the spec: the words and results of spec/95_test_vectors.md (a vector's
number stands in each comment) and the tables of spec/30_encoding.md and spec/40_command_encoder.md. The second
half gives, for every statement of the certificate that has hypotheses, values that meet them all together. -/

namespace Sys2Proof.Tests

open Sys2Proof Sys2Proof.Machine

/-! ### Well-formed instructions: a selector above 4 is none (R82, R90) -/

theorem test_wf_exec_csel5 : (Instr.exec 5#3).wellFormed = false := by decide
theorem test_wf_read_csel6 : (Instr.read 6#3).wellFormed = false := by decide
theorem test_wf_readSeq_csel7 : (Instr.readSeq 7#3).wellFormed = false := by decide
theorem test_wf_exec_csel4 : (Instr.exec 4#3).wellFormed = true := by decide

/-! ### Decoding: one word per constructor -/

/-- A request word written field by field from the layout of R80: HZ, WORD, IDX, RSV, CSEL, OP. -/
def layout (hz : BitVec 32) (word : BitVec 16) (idx : BitVec 8) (rsv : BitVec 1) (csel : BitVec 3)
    (op : BitVec 4) : ReqWord := hz ++ word ++ idx ++ rsv ++ csel ++ op

/-- X2. -/
theorem test_decode_exec : decodeTableWord 64 0x0000000000000030 = some (.exec 3#3) := by decide
/-- R1. -/
theorem test_decode_read : decodeTableWord 64 0x0000000000000041 = some (.read 4#3) := by decide
/-- R4. -/
theorem test_decode_readSeq : decodeTableWord 64 0x0000000000000042 = some (.readSeq 4#3) := by decide
/-- R2. -/
theorem test_decode_readAngle : decodeTableWord 64 0x0000000000000003 = some .readAngle := by decide
/-- R5. -/
theorem test_decode_readAngleSeq : decodeTableWord 64 0x0000000000000004 = some .readAngleSeq := by decide
/-- X7. -/
theorem test_decode_rdbuf : decodeTableWord 64 0x0000000000000205 = some (.rdbuf 2#8) := by decide
/-- X9. -/
theorem test_decode_setfreq : decodeTableWord 64 0x0098968000000006 = some (.setfreq 10000000#32) := by decide
/-- M1. -/
theorem test_decode_mask : decodeTableWord 64 0x000000008ABC0007 = some (.mask 0x8ABC#16) := by decide
/-- M9: MASKB alone comes with a vector. -/
theorem test_decode_maskb : decode (.request 0x0000000000000308#64) 3 = .instr (.maskb 3#8) := by decide
/-- M2. -/
theorem test_decode_parity : decodeTableWord 64 0x0000000080010009 = some (.parity 0x8001#16) := by decide
/-- E4. -/
theorem test_decode_errIdx : decodeTableWord 64 0x000000000000FF0A = some (.errIdx 255#8) := by decide
/-- E5. -/
theorem test_decode_errAny : decodeTableWord 64 0x000000000000000B = some .errAny := by decide
/-- M4. -/
theorem test_decode_deg : decodeTableWord 64 0x000000008ABC000C = some (.deg 0x8ABC#16) := by decide
/-- M5. -/
theorem test_decode_rad : decodeTableWord 64 0x000000008ABC000D = some (.rad 0x8ABC#16) := by decide

/-- C1 to C5, bit by bit: PARITY, READ, then the 14 base bits. -/
theorem test_decode_cmdNop : decodeTableWord 16 0b0000000000000000 = some .cmdNop := by decide
theorem test_decode_cmdClrerr : decodeTableWord 16 0b0100000000000001 = some .cmdClrerr := by decide
theorem test_decode_cmdDiag : decodeTableWord 16 0b0111111111111101 = some .cmdDiag := by decide
theorem test_decode_cmdMag : decodeTableWord 16 0b0111111111111110 = some .cmdMag := by decide
theorem test_decode_cmdAngle : decodeTableWord 16 0b1111111111111111 = some .cmdAngle := by decide

/-- One word of every family, written field by field from R80. -/
theorem test_decode_layout :
    decodeRequest (layout 0#32 0#16 0#8 0b0#1 0b010#3 0b0010#4) 0 = .accept (.readSeq 2#3) ∧
    decodeRequest (layout 0#32 0#16 0b11111110#8 0b0#1 0b000#3 0b0101#4) 0 = .accept (.rdbuf 254#8) ∧
    decodeRequest (layout 0x00989680#32 0#16 0#8 0b0#1 0b000#3 0b0110#4) 0 =
      .accept (.setfreq 10000000#32) ∧
    decodeRequest (layout 0#32 0b1000000000000001#16 0#8 0b0#1 0b000#3 0b1001#4) 0 =
      .accept (.parity 0x8001#16) := by decide

/-- A command word that is none of the five, and the encoder's constraint (C7): flags are bits 15 and 14. -/
theorem test_decode_noSuchCommand : decode (.command 0x1234#16) 0 = .noSuchCommand 0x1234#16 := by decide

/-- F1, F3 to F11: the order of the checks (R224). -/
theorem test_decode_refusals :
    decodeRequest 0x000000000000000E#64 0 = .reject .rsvdOp ∧
    decodeRequest 0x000000000000008E#64 0 = .reject .rsvdOp ∧
    decodeRequest 0x0000000000000080#64 0 = .reject .rsvdField ∧
    decodeRequest 0x00000000000000D0#64 0 = .reject .rsvdField ∧
    decodeRequest 0x0000000000000070#64 0 = .reject .rsvdCsel ∧
    decodeRequest 0x0000000000000104#64 0 = .reject .rsvdField ∧
    decodeRequest 0x000000000001FF05#64 0 = .reject .rsvdField ∧
    decodeRequest 0x0000000000000000#64 1 = .reject .rsvdField := by decide

/-- F13 to F17 and R10: an unused field that is not zero. -/
theorem test_decode_unused_fields :
    decodeRequest 0x0000000000000218#64 2 = .reject .rsvdField ∧
    decodeRequest 0x000F424000000106#64 0 = .reject .rsvdField ∧
    decodeRequest 0x0000000112340007#64 0 = .reject .rsvdField ∧
    decodeRequest 0x000000000001000B#64 0 = .reject .rsvdField ∧
    decodeRequest 0x000000000000001C#64 0 = .reject .rsvdField ∧
    decodeRequest 0x0000000000000043#64 0 = .reject .rsvdField := by decide

/-- The codes of R222. -/
theorem test_refuse_codes : [RefuseCode.none, .rsvdOp, .rsvdField, .rsvdCsel, .idxRange, .lenRange, .freqRange,
    .cfgN].map refuseCodeBits = [0#3, 1#3, 2#3, 3#3, 4#3, 5#3, 6#3, 7#3] := by decide

/-- The default masks of R108. -/
theorem test_default_masks : (bitMask defaultParams.diag.cof, bitMask defaultParams.diag.magHigh,
    bitMask defaultParams.diag.magLow) = (0x0200#16, 0x0400#16, 0x0800#16) := by decide

/-- R7: 0x0200 shows COF, and 0x0800 shows MAG_LOW. -/
theorem test_diag_bits :
    (diagCof defaultParams 0x0200#16, diagMagHigh defaultParams 0x0200#16, diagMagLow defaultParams 0x0200#16) =
      (true, false, false) ∧
    (diagCof defaultParams 0x0800#16, diagMagHigh defaultParams 0x0800#16, diagMagLow defaultParams 0x0800#16) =
      (false, false, true) := by decide

/-! ### Small machines -/

/-- A device with a known pending word. -/
def device (w : Word) : Device := ⟨w, none⟩

/-- An idle block whose buffer holds `words` and whose chain holds `pending`, one device per word; `host` is on
the port. -/
def box (words pending : List Word) (host : List Request) : State :=
  { State.reset with
    cfgN := BitVec.ofNat 8 pending.length, phase := .idle, rbuf := received 0 (words.map device)
    chain := pending.map device, written := words.length == pending.length, host := host }

/-- Two devices, after a transaction that received 0x4ABC and 0x8ABC (E1). -/
def two (host : List Request) : State := box [0x4ABC#16, 0x8ABC#16] [0x0001#16, 0x0002#16] host

/-- A request word on the port, with no vector. -/
def ask (w : ReqWord) : List Request := [⟨w, []⟩]

/-- The next state of an answer, if it is one. -/
def next? : Result → Option State
  | .next s => some s
  | .fault _ => none
  | .refused _ => none

/-- `RESP` after one step. -/
def respAfter (s : State) : Option Resp := (next? (step s)).map State.resp

/-- `REFUSED` and `REFUSE_CODE` after one step. -/
def statusAfter (s : State) : Option (Bool × RefuseCode) :=
  (next? (step s)).map (fun t => (t.refused, t.refuseCode))

/-! ### Requests with a bus operation, one step each -/

/-- X2: EXEC MAG puts 0x7FFE in the sequencer's hands and asserts chip-select. -/
theorem test_exec_taken : (next? (step (two (ask 0x0000000000000030#64)))).map
    (fun t => (t.curCmd, t.csN, t.phase, t.curOp)) = some (0x7FFE#16, false, .setup, some .exec) := by decide
/-- R7. -/
theorem test_read_taken : (next? (step (two (ask 0x0000000000000021#64)))).map
    (fun t => (t.curCmd, t.csN, t.phase, t.curOp)) = some (0x7FFD#16, false, .setup, some .read) := by decide
/-- R4. -/
theorem test_readSeq_taken : (next? (step (two (ask 0x0000000000000042#64)))).map
    (fun t => (t.curCmd, t.phase, t.curOp)) = some (0xFFFF#16, .setup, some .readSeq) := by decide
/-- R2. -/
theorem test_readAngle_taken : (next? (step (two (ask 0x0000000000000003#64)))).map
    (fun t => (t.curCmd, t.phase, t.curOp)) = some (0xFFFF#16, .setup, some .readAngle) := by decide
/-- R5. -/
theorem test_readAngleSeq_taken : (next? (step (two (ask 0x0000000000000004#64)))).map
    (fun t => (t.curCmd, t.phase, t.curOp)) = some (0xFFFF#16, .setup, some .readAngleSeq) := by decide
/-- R11 and C8. -/
theorem test_selector_refused : statusAfter (two (ask 0x0000000000000061#64)) = some (true, .rsvdCsel) := by
  decide

/-! ### The five command words: one exchange each (X2, X4, R7, with the ROM of R103) -/

/-- A block in SHIFT at exchange `k` with command word `c`, over a buffer and a chain of its own. -/
def shifting (c : Word) (k : Nat) (words pending : List Word) : State :=
  { box words pending [] with phase := .shift, csN := false, curCmd := c, curOp := some .exec, k := k }

/-- X2, second exchange: position 1 is filled, position 0 keeps its word, the window stays open. -/
theorem test_cmdMag_exchange :
    (next? (step (shifting 0x7FFE#16 1 [0x1111#16] [0x1111#16, 0x2222#16, 0x3333#16]))).map
      (fun t => (t.rbuf, t.k, t.csN, t.phase)) =
    some ([(0, 0x1111#16), (1, 0x2222#16)], 2, false, .shift) := by decide
/-- X4, first exchange: the old word is overwritten in place. -/
theorem test_cmdNop_exchange :
    (next? (step (shifting 0x0000#16 0 [0xAAAA#16, 0xBBBB#16] [0x0001#16, 0x0002#16]))).map
      (fun t => (t.rbuf, t.k, t.phase)) = some ([(0, 0x0001#16), (1, 0xBBBB#16)], 1, .shift) := by decide
/-- X1: the only exchange of a chain of one closes the window. -/
theorem test_cmdAngle_last :
    (next? (step (shifting 0xFFFF#16 0 [] [0x9ABC#16]))).map
      (fun t => (t.rbuf, t.csN, t.phase, t.lastCmd, t.written)) =
    some ([(0, 0x9ABC#16)], true, .recover, some 0xFFFF#16, true) := by decide
/-- X1: the device has latched its response to 0xFFFF. -/
theorem test_cmdAngle_latch :
    (next? (step (shifting 0xFFFF#16 0 [] [0x9ABC#16]))).map State.chain =
    some [⟨Config.sensorResp 0 0xFFFF#16 1, some 0xFFFF#16⟩] := rfl
/-- R7, first transaction, last exchange. -/
theorem test_cmdDiag_last :
    (next? (step (shifting 0x7FFD#16 1 [0x0001#16] [0x0001#16, 0x0002#16]))).map
      (fun t => (t.rbuf, t.csN, t.k, t.lastCmd)) =
    some ([(0, 0x0001#16), (1, 0x0002#16)], true, 2, some 0x7FFD#16) := by decide
/-- P3, third transaction, first exchange. -/
theorem test_cmdClrerr_exchange :
    (next? (step (shifting 0x4001#16 0 [0x4ABC#16, 0x8ABC#16] [0#16, 0#16]))).map
      (fun t => (t.rbuf, t.curCmd)) = some ([(0, 0#16), (1, 0x8ABC#16)], 0x4001#16) := by decide

/-! ### RDBUF and SETFREQ -/

/-- X6. -/
theorem test_rdbuf : respAfter (box [0x0001#16, 0x0002#16] [0#16, 0#16] (ask 0x0000000000000105#64)) =
    some ⟨0x0002#16, false, [], false⟩ := by decide
/-- X7. -/
theorem test_rdbuf_range : statusAfter (two (ask 0x0000000000000205#64)) = some (true, .idxRange) := by decide
/-- X10. -/
theorem test_setfreq : (next? (step (two (ask 0x0000000100000006#64)))).map State.freq = some 1#32 := by decide
/-- X11: refused, and FREQ stays. -/
theorem test_setfreq_range : (next? (step (two (ask 0x0098968100000006#64)))).map
    (fun t => (t.freq, t.refuseCode)) = some (1000000#32, .freqRange) := by decide

/-! ### The result utilities -/

/-- M1. -/
theorem test_mask : respAfter (two (ask 0x000000008ABC0007#64)) = some ⟨0x0ABC#16, false, [], false⟩ := by decide
/-- M7. -/
theorem test_maskb : respAfter (two [⟨0x0000000000000108#64, [0xFFFF#16, 0xFFFF#16]⟩]) =
    some ⟨0#16, false, [0x3FFF#16, 0xFFFF#16], false⟩ := by decide
/-- M11. -/
theorem test_maskb_range : statusAfter (two [⟨0x0000000000000308#64, [0x0001#16, 0x0002#16]⟩]) =
    some (true, .lenRange) := by decide
/-- M3. -/
theorem test_parity : respAfter (two (ask 0x000000008ABC0009#64)) = some ⟨0#16, true, [], false⟩ := by decide
/-- S4 to S6 and the rows where the wrong 15-bit reading differs. -/
theorem test_parity_words : [0x0000#16, 0x0001#16, 0x8001#16, 0x8000#16, 0x9ABC#16, 0xFFFF#16, 0x1234#16].map parityOk =
    [true, false, true, false, false, true, false] := by decide
/-- E1. -/
theorem test_errIdx : respAfter (two (ask 0x000000000000000A#64)) = some ⟨0#16, true, [], false⟩ := by decide
/-- E3: not refused. -/
theorem test_errIdx_range : (respAfter (two (ask 0x000000000000020A#64)), statusAfter (two (ask 0x000000000000020A#64)))
    = (some ⟨0#16, false, [], false⟩, some (false, .none)) := by decide
/-- E7: the last word alone. -/
theorem test_errAny : respAfter (box [0#16, 0#16, 0x4000#16] [0#16, 0#16, 0#16] (ask 0x000000000000000B#64)) =
    some ⟨0#16, true, [], false⟩ := by decide
/-- E6. -/
theorem test_errAny_false : respAfter (box [0x8ABC#16, 0x0ABC#16] [0#16, 0#16] (ask 0x000000000000000B#64)) =
    some ⟨0#16, false, [], false⟩ := by decide
/-- M4. -/
theorem test_deg : respAfter (two (ask 0x000000008ABC000C#64)) = some ⟨6038#16, false, [], false⟩ := by decide
/-- Rows of the table of part 2.4: the largest value, the flags ignored, and a value that rounds down. -/
theorem test_deg_words : [0x3FFF#16, 0xFFFF#16, 0x8000#16, 0x0001#16, 0x2AAA#16, 0x3A3A#16].map degrees =
    [35997#16, 35997#16, 0#16, 2#16, 23998#16, 32752#16] := by decide
/-- M5. -/
theorem test_rad : respAfter (two (ask 0x000000008ABC000D#64)) = some ⟨10538#16, false, [], false⟩ := by decide
theorem test_rad_words : [0x3FFF#16, 0x7FFE#16, 0x0001#16, 0x1555#16, 0x0400#16].map radians =
    [62828#16, 62824#16, 3#16, 20942#16, 3927#16] := by decide

/-! ### Refusals and reset -/

/-- F19, its second request: the first code stays. -/
theorem test_first_code_stays :
    statusAfter { two (ask 0x000000000000000E#64) with refused := true, refuseCode := .idxRange } =
    some (true, .idxRange) := by decide

/-- Z1 to Z3: the values that differ. -/
def resetWith (n : Nat) : Option (BitVec 8 × Phase × Bool × RefuseCode) :=
  (next? (step { two [] with turns := [.reset n] })).map (fun t => (t.cfgN, t.phase, t.refused, t.refuseCode))
theorem test_reset_255 : resetWith 255 = some (255#8, .recover, false, .none) := by decide
/-- F20 and F21; CFG_N and PHASE are the model's choice, log entry 11. -/
theorem test_reset_invalid : resetWith 0 = some (0#8, .idle, true, .cfgN) ∧ resetWith 256 = resetWith 0 := by
  decide
/-- Z4. -/
theorem test_reset_in_shift : (next? (step { shifting 0#16 1 [0x1111#16] [0x1111#16, 0x2222#16, 0x3333#16] with
    turns := [.reset 3] })).map (fun t => (t.csN, t.phase, t.written, t.rbuf)) = some (true, .recover, false, []) := by
  decide

/-- R242: an idle block is not final while the host has a further request, waiting or still to be issued. -/
theorem test_not_final : ¬ Final { two [] with turns := [.issue ⟨3#64, []⟩] } ∧ ¬ Final (two (ask 3#64)) :=
  ⟨fun h => h.1.2 ⟨3#64, []⟩ (.head _), fun h => List.cons_ne_nil _ _ h.1.1⟩

/-- The opcode table's rows run as the first instruction after reset. -/
theorem test_first_instruction :
    respAfter (State.reset.withFetchWord 64 0x000000003FFF000D) = some ⟨62828#16, false, [], false⟩ ∧
    (next? (step (State.reset.withFetchWord 16 0x4001))).map State.lastCmd = some (some 0x4001#16) := by decide

/-! ### Witnesses: values that meet the hypotheses of each statement -/

theorem witness_DecodeEncodeRoundTrip :
    ((Instr.exec 4#3).wellFormed = true ∧ ((0 : Nat) = 0 ∨ ∃ n, Instr.exec 4#3 = .maskb n)) ∧
    ((Instr.maskb 255#8).wellFormed = true ∧ ((3 : Nat) = 0 ∨ ∃ n, Instr.maskb 255#8 = .maskb n)) :=
  ⟨⟨rfl, .inl rfl⟩, rfl, .inr ⟨255#8, rfl⟩⟩

theorem witness_AcceptedRequestIsItsEncoding :
    decodeRequest 0x000000000000FF08#64 255 = .accept (.maskb 255#8) ∧
    decodeRequest 0xFFFFFFFF00000006#64 0 = .accept (.setfreq 4294967295#32) := by decide

theorem offers_two (r : Request) (rest : List Request) :
    BlockMoves (two (r :: rest)) ∧ Offers r (two (r :: rest)) :=
  ⟨.inl rfl, rfl, (nofun : RefuseCode.none ≠ .cfgN), rfl⟩

theorem witness_StepRunsRequest :
    (BlockMoves (two [⟨0x0000000000000308#64, [1#16, 2#16]⟩]) ∧
      Offers ⟨0x0000000000000308#64, [1#16, 2#16]⟩ (two [⟨0x0000000000000308#64, [1#16, 2#16]⟩])) ∧
    decodeRequest 0x0000000000000308#64 2 = .accept (.maskb 3#8) := ⟨offers_two _ _, by decide⟩

theorem witness_StepRunsCommandWord :
    (BlockMoves (shifting 0x7FFE#16 0 [] [1#16]) ∧ (shifting 0x7FFE#16 0 [] [1#16]).phase = .shift ∧
      decodeCommand defaultRom 0x7FFE#16 = some .mag) ∧
    (BlockMoves (shifting 0x1234#16 0 [] [1#16]) ∧ (shifting 0x1234#16 0 [] [1#16]).phase = .shift ∧
      0x1234#16 ∉ romWords defaultRom) :=
  ⟨⟨.inl rfl, rfl, by decide⟩, .inl rfl, rfl, by decide⟩

/-- F1 and F2. -/
theorem witness_ReservedOpcodeRefused :
    ((BlockMoves (two (ask 0xE#64)) ∧ Offers ⟨0xE#64, []⟩ (two (ask 0xE#64))) ∧ fieldOp 0xE#64 = 0xE#4) ∧
    ((BlockMoves (two (ask 0xFFFFFFFFFFFFFFFF#64)) ∧
      Offers ⟨0xFFFFFFFFFFFFFFFF#64, []⟩ (two (ask 0xFFFFFFFFFFFFFFFF#64))) ∧
      fieldOp 0xFFFFFFFFFFFFFFFF#64 = 0xF#4) :=
  ⟨⟨offers_two _ _, by decide⟩, offers_two _ _, by decide⟩

/-- F4, F17, F8, F16, F15, F10: each of the six grounds alone. -/
theorem witness_UnusedFieldRefused :
    (∀ w : ReqWord, BlockMoves (two (ask w)) ∧ Offers ⟨w, []⟩ (two (ask w))) ∧
    (BlockMoves (two [⟨5#64, [0#16]⟩]) ∧ Offers ⟨5#64, [0#16]⟩ (two [⟨5#64, [0#16]⟩])) ∧
    (opOfCode (fieldOp 0x80#64) = some .exec ∧ fieldRsv 0x80#64 = 1#1) ∧
    (opOfCode (fieldOp 0x1C#64) = some .deg ∧ Op.deg ∉ [Op.exec, .read, .readSeq] ∧ fieldCsel 0x1C#64 ≠ 0#3) ∧
    (opOfCode (fieldOp 0x104#64) = some .readAngleSeq ∧ Op.readAngleSeq ∉ [Op.rdbuf, .maskb, .errIdx] ∧
      fieldIdx 0x104#64 ≠ 0#8) ∧
    (opOfCode (fieldOp 0x1000B#64) = some .errAny ∧ Op.errAny ∉ [Op.mask, .parity, .deg, .rad] ∧
      fieldWord 0x1000B#64 ≠ 0#16) ∧
    (opOfCode (fieldOp 0x0000000112340007#64) = some .mask ∧ Op.mask ≠ .setfreq ∧
      fieldHz 0x0000000112340007#64 ≠ 0#32) ∧
    (opOfCode (fieldOp 5#64) = some .rdbuf ∧ Op.rdbuf ≠ .maskb ∧ [0#16] ≠ ([] : List Word)) :=
  ⟨fun _ => offers_two _ _, offers_two _ _, by decide⟩

/-- F6, F7 and R11. -/
theorem witness_ReservedSelectorRefused :
    (∀ w : ReqWord, (BlockMoves (two (ask w)) ∧ Offers ⟨w, []⟩ (two (ask w)))) ∧
    ∀ e ∈ [(0x70#64, Op.exec), (0x61#64, Op.read), (0x52#64, Op.readSeq)],
      opOfCode (fieldOp e.1) = some e.2 ∧ e.2 ∈ [Op.exec, .read, .readSeq] ∧ 5 ≤ (fieldCsel e.1).toNat ∧
      fieldRsv e.1 = 0#1 ∧ fieldIdx e.1 = 0#8 ∧ fieldWord e.1 = 0#16 ∧ fieldHz e.1 = 0#32 :=
  ⟨fun _ => offers_two _ _, by decide⟩

theorem witness_RefusalChangesOnlyStatus :
    (BlockMoves (two (ask 0xD0#64)) ∧ Offers ⟨0xD0#64, []⟩ (two (ask 0xD0#64))) ∧
    decodeRequest 0xD0#64 0 = .reject .rsvdField :=
  ⟨offers_two _ _, by decide⟩

theorem witness_EncoderRefusesReservedSelector : 5 ≤ (5#3).toNat ∧ 5 ≤ (7#3).toNat := by decide

/-- F20: a block that a reset with N = 0 has left. -/
def invalidBlock : State :=
  { box [] [] (ask 0#64) with refused := true, refuseCode := .cfgN }

theorem witness_InvalidConstructionRefusesEveryRequest :
    BlockMoves invalidBlock ∧ invalidBlock.phase = .idle ∧ invalidBlock.refuseCode = .cfgN ∧
    invalidBlock.host.head? = some ⟨0#64, []⟩ := ⟨.inl rfl, rfl, rfl, rfl⟩

/-- A busy block while the host issues READ_ANGLE. -/
def issuing : State := { two [] with phase := .setup, turns := [.issue ⟨3#64, []⟩] }

/-- X14. -/
theorem witness_RequestsWaitWhileBusy :
    (busy { two (ask 3#64) with phase := .setup } = true ∧
      (next? (step { two (ask 3#64) with phase := .setup })).isSome = true) ∧
    (busy issuing = true ∧ issuing.turns.head? = some (.issue ⟨3#64, []⟩) ∧
      (next? (step issuing)).isSome = true) := by decide

theorem witness_IdleBlockWaits :
    (BlockMoves (two []) ∧ (two []).phase = .idle ∧ (two []).host = []) ∧
    (issuing.turns.head? = some (.issue ⟨3#64, []⟩) ∧ BlockMoves { two [] with turns := [.block] }) :=
  ⟨⟨.inl rfl, rfl, rfl⟩, rfl, .inr rfl⟩

theorem witness_SelectedBusRequestsTaken : (0#3).toNat < 5 ∧ (4#3).toNat < 5 := by decide

theorem witness_FrameBusRequests :
    ∀ i ∈ [Instr.exec 0#3, .exec 7#3, .read 4#3, .readSeq 5#3, .readAngle, .readAngleSeq],
      (next? (exec i (two []))).isSome = true ∧
      (next? (exec i { two [] with refused := true, refuseCode := .idxRange })).isSome = true := by decide

theorem witness_RdbufReturnsWrittenWord :
    (1#8).toNat < (two []).n ∧ Buffer.get (1#8).toNat (two []).rbuf = some 0x8ABC#16 := by decide

/-- X8. -/
theorem witness_RdbufDrawsUnwrittenWord :
    (1#8).toNat < (box [] [0#16, 0#16] []).n ∧ Buffer.get (1#8).toNat (box [] [0#16, 0#16] []).rbuf = none := by
  decide

theorem witness_RdbufOutOfRangeRefused : (two []).n ≤ (2#8).toNat ∧ (two []).n ≤ (255#8).toNat := by decide

/-- X9 to X13: both ends of both ranges. -/
theorem witness_SetfreqWritesOrRefuses :
    (1 ≤ (1#32).toNat ∧ (1#32).toNat ≤ 10000000) ∧
    (1 ≤ (10000000#32).toNat ∧ (10000000#32).toNat ≤ 10000000) ∧ (0#32).toNat = 0 ∧
    10000000 < (10000001#32).toNat ∧ 10000000 < (4294967295#32).toNat := by decide

theorem witness_FrameSetfreq :
    ∀ hz ∈ [0#32, 1#32, 10000000#32, 10000001#32],
      (∃ t, exec (.setfreq hz) (two []) = .next t) ∧
      ∃ t, exec (.setfreq hz) { two [] with refused := true, refuseCode := .rsvdOp } = .next t := by
  simp only [List.forall_mem_cons]
  exact ⟨⟨⟨_, rfl⟩, _, rfl⟩, ⟨⟨_, rfl⟩, _, rfl⟩, ⟨⟨_, rfl⟩, _, rfl⟩, ⟨⟨_, rfl⟩, _, rfl⟩, nofun⟩

/-- M7, M8 and M9: a count below, at zero, and at the vector's length. -/
theorem witness_MaskbMasksFirstWords :
    (1#8).toNat ≤ (portVec (two [⟨0x108#64, [0xFFFF#16, 0xFFFF#16]⟩])).length ∧
    (0#8).toNat ≤ (portVec (two [⟨8#64, [0xFFFF#16]⟩])).length ∧
    (3#8).toNat ≤ (portVec (two [⟨0x308#64, [0x8E39#16, 0x16C1#16, 0x2D82#16]⟩])).length ∧
    (portVec (two [⟨0x108#64, [0xFFFF#16, 0xFFFF#16]⟩]))[1]? = some 0xFFFF#16 := by decide

/-- M11 and F12. -/
theorem witness_MaskbTooLongRefused :
    (portVec (two [⟨0x308#64, [1#16, 2#16]⟩])).length < (3#8).toNat ∧
    (portVec (two (ask 0x108#64))).length < (1#8).toNat := by decide

/-- E2 and E10. -/
theorem witness_ErrIdxReadsErrorFlag :
    ((1#8).toNat < (two []).n ∧ Buffer.get (1#8).toNat (two []).rbuf = some 0x8ABC#16) ∧
    ((0#8).toNat < (box [] [0#16] []).n ∧ Buffer.get (0#8).toNat (box [] [0#16] []).rbuf = none) := by decide

theorem witness_ErrIdxOutOfRangeIsFalse : (two []).n ≤ (2#8).toNat ∧ (two []).n ≤ (255#8).toNat := by decide

/-- E5 and E6. -/
theorem witness_ErrAnyIsSomeErrorFlag :
    (∀ i, i < (two []).n → (Buffer.get i (two []).rbuf).isSome = true) ∧
    ∀ i, i < (box [0x8ABC#16, 0x0ABC#16] [0#16, 0#16] []).n →
      (Buffer.get i (box [0x8ABC#16, 0x0ABC#16] [0#16, 0#16] []).rbuf).isSome = true := by
  have h2 : (two []).n = 2 := by decide
  have h3 : (box [0x8ABC#16, 0x0ABC#16] [0#16, 0#16] []).n = 2 := by decide
  rw [h2, h3]
  decide

/-- One word with its error flag set, and one unwritten. -/
theorem witness_ErrAnyCompletes :
    ∃ i w, i < (box [0x4ABC#16] [0#16, 0#16] []).n ∧
      Buffer.get i (box [0x4ABC#16] [0#16, 0#16] []).rbuf = some w ∧ w.getLsbD 14 = true :=
  ⟨0, 0x4ABC#16, by decide⟩

theorem witness_ScalesPayload_monotone : (payload 0xC001#16).toNat ≤ (payload 0x3FFF#16).toNat := by decide

theorem witness_FrameUtilities :
    ∀ i ∈ [Instr.mask 1#16, .parity 1#16, .deg 1#16, .rad 1#16, .maskb 0#8, .maskb 1#8, .errIdx 0#8, .errIdx 9#8,
        .rdbuf 0#8, .rdbuf 2#8, .errAny],
      (next? (exec i (two []))).isSome = true ∧
      (next? (exec i { two [] with refused := true, refuseCode := .rsvdOp })).isSome = true := by decide

theorem witness_SetupLeadsToShift :
    BlockMoves { two [] with phase := .setup } ∧ ({ two [] with phase := .setup } : State).phase = .setup :=
  ⟨.inl rfl, rfl⟩

/-- The first exchange of two. -/
theorem witness_CommandExchangeGoesOn :
    (shifting 0#16 0 [] [1#16, 2#16]).chain.length = (shifting 0#16 0 [] [1#16, 2#16]).n ∧
    (shifting 0#16 0 [] [1#16, 2#16]).k + 1 < (shifting 0#16 0 [] [1#16, 2#16]).n ∧
    (shifting 0#16 0 [] [1#16, 2#16]).chain[0]? = some (device 1#16) := by decide

/-- The second exchange of two. -/
theorem witness_LastExchangeClosesWindow :
    (shifting 0#16 1 [] [1#16, 2#16]).chain.length = (shifting 0#16 1 [] [1#16, 2#16]).n ∧
    (shifting 0#16 1 [] [1#16, 2#16]).k + 1 = (shifting 0#16 1 [] [1#16, 2#16]).n ∧
    (shifting 0#16 1 [] [1#16, 2#16]).chain[1]? = some (device 2#16) := by decide

/-- A chain of one behind a block of two, at exchange `k` or in SETUP. -/
def shortChain (phase : Phase) (k : Nat) : State :=
  { shifting 0#16 k [] [1#16, 2#16] with chain := [device 1#16], phase := phase }

/-- Each of the three clauses: an exchange that goes on, one that closes the window, and the whole transaction. -/
theorem witness_WrongChainLengthStoresFreeWord :
    (∀ p k, (shortChain p k).chain.length ≠ (shortChain p k).n) ∧
    (shortChain .shift 0).k + 1 < (shortChain .shift 0).n ∧
    (shortChain .shift 1).k + 1 = (shortChain .shift 1).n ∧
    (Quiet (shortChain .setup 0) ∧ (shortChain .setup 0).phase = .setup ∧ 1 ≤ (shortChain .setup 0).n) :=
  ⟨fun _ _ => (by decide : 1 ≠ (2#8).toNat), by decide, by decide, rfl, rfl, by decide⟩

theorem witness_FrameCommands :
    ∀ c ∈ [Cmd.nop, .clrerr, .diag, .mag, .angle],
      (next? (exec (cmdInstr c) (shifting 0#16 0 [] [1#16, 2#16]))).isSome = true ∧
      (next? (exec (cmdInstr c) (shifting 0#16 1 [] [1#16, 2#16]))).isSome = true := by decide

theorem witness_NoExchangePastTheLast :
    (shifting 0#16 2 [] [1#16, 2#16]).n ≤ (shifting 0#16 2 [] [1#16, 2#16]).k := by decide

/-- A block in RECOVER, in transaction `t` of the request `op`. -/
def recovering (op : Option Op) (t : Txn) : State := { two [] with phase := .recover, curOp := op, txn := t }

theorem witness_RecoverContinuesOrEnds :
    (∀ op t, BlockMoves (recovering op t) ∧ (recovering op t).phase = .recover) ∧
    ((recovering (some .readAngle) .one).txn = .one ∧ (recovering (some .readAngle) .one).curOp = some .readAngle) ∧
    ((recovering (some .read) .two).curOp = some .read ∧ (recovering (some .read) .two).txn = .two) ∧
    ((recovering (some .exec) .one).curOp = some .exec ∧ Op.exec ≠ .read ∧ Op.exec ≠ .readAngle) ∧
    (recovering none .one).curOp = none :=
  ⟨fun _ _ => ⟨.inl rfl, rfl⟩, by decide⟩

theorem two_fits (host : List Request) : ChainFits (two host) := ⟨rfl, (by decide : 1 ≤ (2#8).toNat)⟩

theorem two_buffer (host : List Request) : BufferOk (two host) := ⟨rfl, received_lt (by decide : 0 + 2 ≤ (2#8).toNat)⟩

/-- The machine of two devices in SETUP with the word of ANGLE. -/
def setup : State := { two [] with phase := .setup, csN := false, curCmd := 0xFFFF#16, curOp := some .exec }

theorem witness_StepsMakeTransaction :
    Quiet setup ∧ setup.phase = .setup ∧ ChainFits setup ∧ BufferOk setup :=
  ⟨rfl, rfl, two_fits [], two_buffer []⟩

theorem witness_OneWindowSpansAllExchanges : Quiet setup ∧ setup.phase = .setup ∧ ChainFits setup ∧ 1 < setup.n :=
  ⟨rfl, rfl, two_fits [], by decide⟩

theorem witness_ExecRunsOneTransaction :
    Quiet (two (ask 0x40#64)) ∧ Offers ⟨0x40#64, []⟩ (two (ask 0x40#64)) ∧ ChainFits (two (ask 0x40#64)) ∧
    BufferOk (two (ask 0x40#64)) ∧
    decodeRequest 0x40#64 0 = .accept (.exec 4#3) := ⟨rfl, (offers_two _ _).2, two_fits _, two_buffer _, by decide⟩

theorem witness_PipelinedReadsRunOneTransaction :
    (∀ w, Quiet (two (ask w)) ∧ Offers ⟨w, []⟩ (two (ask w)) ∧ ChainFits (two (ask w)) ∧ BufferOk (two (ask w))) ∧
    decodeRequest 0x42#64 0 = .accept (.readSeq 4#3) ∧ decodeRequest 0x4#64 0 = .accept .readAngleSeq :=
  ⟨fun _ => ⟨rfl, (offers_two _ _).2, two_fits _, two_buffer _⟩, by decide, by decide⟩

theorem witness_ImmediateReadsRunTwoTransactions :
    (∀ w, Quiet (two (ask w)) ∧ Offers ⟨w, []⟩ (two (ask w)) ∧ ChainFits (two (ask w)) ∧ BufferOk (two (ask w))) ∧
    decodeRequest 0x21#64 0 = .accept (.read 2#3) ∧ decodeRequest 0x3#64 0 = .accept .readAngle :=
  ⟨fun _ => ⟨rfl, (offers_two _ _).2, two_fits _, two_buffer _⟩, by decide, by decide⟩

/-- R1, R2, R4 and R5: each read mode with the word of ANGLE, and READ with the word of MAG. -/
theorem witness_LatencyOfTheReadModes :
    (∀ w, Quiet (two (ask w)) ∧ Offers ⟨w, []⟩ (two (ask w)) ∧ ChainFits (two (ask w)) ∧
      BufferOk (two (ask w))) ∧
    (decodeRequest 0x41#64 0 = .accept (.read 4#3) ∧ enc defaultRom 4#3 = some 0xFFFF#16) ∧
    (decodeRequest 0x31#64 0 = .accept (.read 3#3) ∧ enc defaultRom 3#3 = some 0x7FFE#16) ∧
    (decodeRequest 0x3#64 0 = .accept .readAngle ∧ 0xFFFF#16 = defaultRom.angle) ∧
    (decodeRequest 0x42#64 0 = .accept (.readSeq 4#3) ∧ enc defaultRom 4#3 = some 0xFFFF#16) ∧
    (decodeRequest 0x4#64 0 = .accept .readAngleSeq ∧ 0xFFFF#16 = defaultRom.angle) ∧
    (two []).chain[1]? = some (device 2#16) :=
  ⟨fun _ => ⟨rfl, (offers_two _ _).2, two_fits _, two_buffer _⟩, by decide⟩

theorem witness_ReadEqualsExecThenExecNop :
    (4#3).toNat < 5 ∧ Quiet (two []) ∧ (two []).phase = .idle ∧ (two []).refuseCode ≠ .cfgN ∧ ChainFits (two []) ∧
    BufferOk (two []) := ⟨by decide, rfl, rfl, by decide, two_fits _, two_buffer _⟩

/-- The invariant holds of an idle block of two devices with READ_ANGLE on its port. -/
theorem witness_StepKeepsInvariant : Inv (two (ask 3#64)) ∧ (next? (step (two (ask 3#64)))).isSome = true := by
  have hn : (two (ask 3#64)).n = 2 := by decide
  have hvec : ∀ r ∈ (two (ask 3#64)).host, r.vec.length ≤ Config.lMax := by decide
  refine ⟨⟨two_buffer _, ?_, ?_, by decide, by decide, by decide, by decide, by decide, by decide, by decide, by decide,
    by decide, ⟨by decide, hvec, nofun⟩, ?_, by decide⟩, by decide⟩
  · rw [hn]; decide
  · intro h; cases h
  · intro c h; cases h

theorem witness_InvariantMeansProgress : Inv (two (ask 3#64)) := witness_StepKeepsInvariant.1

theorem witness_OnlyExchangesWriteBuffer :
    (two (ask 3#64)).turns.head? = none ∧ (next? (step (two (ask 3#64)))).isSome = true ∧
    (two (ask 3#64)).phase ≠ .shift := by
  decide

/-- X10: a step that changes FREQ. -/
theorem witness_ConfigurationIsFixed :
    (two (ask 0x0000000100000006#64)).turns.head? = none ∧
    (next? (step (two (ask 0x0000000100000006#64)))).map State.freq = some 1#32 ∧
    (two (ask 0x0000000100000006#64)).freq ≠ 1#32 := by decide

theorem witness_RefusalIsSticky : invalidBlock.turns.head? = none ∧ invalidBlock.refused = true ∧
    (next? (step invalidBlock)).isSome = true := by decide

/-- Z1 and Z2. -/
theorem witness_ResetGivesResetState :
    ∀ n ∈ [1, 255], ({ two [] with turns := [.reset n] } : State).turns.head? = some (.reset n) ∧ 1 ≤ n ∧ n ≤ 255 ∧
      ({ two [] with turns := [.reset n] } : State).phase = .idle := by decide

/-- F20 and F21. -/
theorem witness_InvalidResetGivesRefusedState :
    (({ two [] with turns := [.reset 0] } : State).turns.head? = some (.reset 0)) ∧
    (({ two [] with turns := [.reset 256] } : State).turns.head? = some (.reset 256) ∧ 255 < 256) := by decide

/-- Z4. -/
theorem witness_ResetCutsTransaction :
    ∀ p ∈ [Phase.setup, .shift],
      ({ setup with turns := [.reset 3], phase := p } : State).turns.head? = some (.reset 3) ∧
      (({ setup with turns := [.reset 3], phase := p } : State).phase = .setup ∨
        ({ setup with turns := [.reset 3], phase := p } : State).phase = .shift) ∧ 0 < setup.chain.length := by decide

theorem witness_PowerUpDrawsPendingWords :
    ({ two [] with turns := [.powerUp] } : State).turns.head? = some .powerUp ∧
    0 < (two []).chain.length := by decide

/-- Each of the four clauses; the final state is one in which the sensors power up next. -/
theorem witness_BlockWithoutRequestRests :
    (BlockMoves (recovering none .one) ∧ (recovering none .one).phase = .recover ∧
      (recovering none .one).curOp = none) ∧
    (BlockMoves (two []) ∧ (two []).phase = .idle ∧ (two []).host = []) ∧
    (Final { two [] with turns := [.powerUp] } ∧ NoReset { two [] with turns := [.powerUp] } ∧
      (next? (step { two [] with turns := [.powerUp] })).isSome = true) ∧
    (Quiet (recovering none .one) ∧ (recovering none .one).host = []) :=
  ⟨⟨.inl rfl, rfl, rfl⟩, ⟨.inl rfl, rfl, rfl⟩,
    ⟨⟨⟨rfl, (by simp : ∀ r, Turn.issue r ∉ [Turn.powerUp])⟩, rfl⟩,
      (by simp : ∀ n, [Turn.powerUp].head? ≠ some (.reset n)), by decide⟩, rfl, rfl⟩

/-- Each clause with hypotheses: the invariant, F4, both ends of SETFREQ's range, both ends of the selector's, and Z1
and Z2. -/
theorem witness_StatusOutputsShowState :
    Inv (two (ask 3#64)) ∧
    ((BlockMoves (two (ask 0x80#64)) ∧ Offers ⟨0x80#64, []⟩ (two (ask 0x80#64))) ∧
      decodeRequest 0x80#64 0 = .reject .rsvdField) ∧
    (1 ≤ (1#32).toNat ∧ (10000000#32).toNat ≤ 10000000) ∧
    ((0#3).toNat < 5 ∧ (4#3).toNat < 5) ∧
    ∀ n ∈ [1, 255], ({ two [] with turns := [.reset n] } : State).turns.head? = some (.reset n) ∧ 1 ≤ n ∧ n ≤ 255 :=
  ⟨witness_StepKeepsInvariant.1, ⟨offers_two _ _, by decide⟩, by decide, by decide, by decide⟩

end Sys2Proof.Tests
end

/-! # What the steps keep: the invariant, the buffer, the configuration, the refusal status

First everything one step can do, as a relation with one constructor per row of the sequencer's tables and per
agent; then, row by row, what the invariant needs; then the statements. -/

namespace Sys2Proof.Machine

/-! ### Everything a step can do, row by row -/

/-- An idle block whose next step runs the accepted instruction `i`. -/
def Accepts (i : Instr) (s : State) : Prop :=
  ∃ r, Offers r s ∧ decodeRequest r.word r.vec.length = .accept i

/-- The rows of the block's step, with their guards: what IDLE does with its port (spec/30_encoding.md R84, R93), and
R127 of spec/41_transaction_executor.md for the rest. -/
inductive BlockRow (s : State) : State → Prop where
  /-- No request stands on the port. -/
  | waits : s.phase = .idle → portRequest s = none → BlockRow s (idleStep s)
  /-- The request on the port fails a check of the decoder, or the construction was invalid (R223). -/
  | rejects {code : RefuseCode} : s.phase = .idle → portRequest s = some (.reject code) →
      BlockRow s (popRequest (refuse code s))
  /-- An accepted request fails a check of its meaning (R93). -/
  | refuses {i : Instr} {code : RefuseCode} : Accepts i s → code ≠ .none →
      BlockRow s (popRequest (refuse code s))
  /-- A bus request begins with a word of the ROM (R105, R127). -/
  | takes {i : Instr} {op : Op} {c : Word} : Accepts i s → c ∈ romWords s.params.rom → 1 ≤ transactionsOf op →
      BlockRow s (popRequest (takeBusRequest op c s))
  /-- SETFREQ in range (R133). -/
  | setsFreq {hz : BitVec 32} : Accepts (.setfreq hz) s → 1 ≤ hz.toNat → hz.toNat ≤ Config.freqMax →
      BlockRow s (popRequest { s with freq := hz, resp := { s.resp with view := false }, respDone := true })
  /-- Every other request completes with a new `RESP`, at the cost of some free values at most. -/
  | answers {i : Instr} {r : Resp} {d : Nat} : Accepts i s →
      r.vec = s.resp.vec ∨ r.vec.length = (portVec s).length →
      BlockRow s (popRequest { s with resp := r, respDone := true, draws := d })
  /-- SETUP ends (R127). -/
  | startsShift : s.phase = .setup → BlockRow s (endSetup s)
  /-- An exchange before the last (R127, R142). -/
  | goesOn {rx : Word} {d : Nat} : s.phase = .shift → s.k + 1 < s.n →
      BlockRow s { s with rbuf := Buffer.put s.k rx s.rbuf, k := s.k + 1, respDone := false, draws := d }
  /-- The last exchange: the window closes and the chain latches (R127, R143). -/
  | closes {rx : Word} {d : Nat} {ch : List Device} : s.phase = .shift → s.k + 1 = s.n →
      (∀ x ∈ ch, x.pendCmd = none ∨ x.pendCmd = some s.curCmd) →
      BlockRow s { s with
        rbuf := Buffer.put s.k rx s.rbuf, k := s.n, written := true, csN := true, phase := .recover
        lastCmd := some s.curCmd, respDone := false, chain := ch, draws := d }
  /-- RECOVER ends, and an immediate read has its second transaction to run (R161). -/
  | startsSecond : s.phase = .recover → s.txn = .one → s.curOp = some .read ∨ s.curOp = some .readAngle →
      BlockRow s { s with
        txn := .two, curCmd := s.params.rom.nop, csN := false, phase := .setup, respDone := false }
  /-- RECOVER ends, and with it the request (R126). -/
  | finishes : s.phase = .recover → hasSecond s = false → s.curOp ≠ none →
      BlockRow s { s with phase := .idle, resp := { s.resp with view := true }, respDone := true }
  /-- RECOVER ends with no request in progress, as after a reset (R127). -/
  | rests : s.phase = .recover → s.curOp = none → BlockRow s { s with phase := .idle, respDone := false }

/-- The step of an agent, with the turn used up before. -/
inductive StepRow (s : State) : State → Prop where
  | reset {n : Nat} : s.turns.head? = some (.reset n) → StepRow s (resetBlock n (nextTurn s))
  | powerUp : s.turns.head? = some .powerUp → StepRow s (powerUpChain (nextTurn s))
  | issue {r : Request} : s.turns.head? = some (.issue r) → StepRow s (issueRequest r (nextTurn s))
  | block {t : State} : BlockMoves s → BlockRow (nextTurn s) t → StepRow s t

/-- A refusal that comes from the port has a code. -/
theorem portRequest_reject_ne_none {s : State} {code : RefuseCode} (h : portRequest s = some (.reject code)) :
    code ≠ .none := by
  unfold portRequest at h
  split at h
  · cases h
  · split_ifs at h
    · cases h; decide
    · rcases decodeRequest_reject (Option.some.inj h) with rfl | rfl | rfl <;> decide

/-- An accepted request's step is one of the rows that IDLE has for it. -/
theorem blockRow_of_accepts {s t : State} {i : Instr} (ha : Accepts i s) (h : retire (exec i s) = .next t) :
    BlockRow s t := by
  obtain ⟨u, hu, rfl⟩ := retire_next h
  have ⟨_, _, hd⟩ := ha
  rcases exec_request_cases hd s with ⟨op, c, hc, hop, e⟩ | ⟨code, hcode, e⟩ | ⟨hz, rfl, h1, h2, e⟩ |
    ⟨resp, d, hv, e⟩ <;> cases e.symm.trans hu
  · exact .takes ha hc hop
  · exact .refuses ha (by rcases hcode with rfl | rfl | rfl | rfl <;> decide)
  · exact .setsFreq ha h1 h2
  · exact .answers ha hv

theorem blockRow_of_blockStep {s t : State} (h : blockStep s = .next t) : BlockRow s t := by
  rcases blockStep_cases s with ⟨hp, ho, e⟩ | ⟨i, hp, ho, e⟩ | ⟨code, hp, ho, e⟩ | ⟨hp, e⟩ | ⟨hp, e⟩ | ⟨hp, e⟩ <;>
    rw [e] at h
  · cases h; exact .waits hp ho
  · exact blockRow_of_accepts (portRequest_accept hp ho) h
  · cases h; exact .rejects hp ho
  · cases h; exact .startsShift hp
  · rcases exchange_cases s.curCmd s with ⟨-, e⟩ | ⟨rx, d, hk, e⟩ | ⟨rx, d, ch, hk, -, hm, e⟩ <;>
      cases e.symm.trans h
    · exact .goesOn hp hk
    · exact .closes hp hk hm
  · rcases endRecover_cases s with ⟨hx, ho, e⟩ | ⟨hs, ho, e⟩ | ⟨ho, e⟩ <;> rw [e] at h <;> cases h
    · exact .startsSecond hp hx ho
    · exact .finishes hp hs ho
    · exact .rests hp ho

theorem stepRow_of_step {s t : State} (h : step s = .next t) : StepRow s t := by
  rcases step_turn s with ⟨n, ht, e⟩ | ⟨ht, e⟩ | ⟨r, ht, e⟩ | ⟨hb, e⟩ <;> rw [e] at h
  · cases h; exact .reset ht
  · cases h; exact .powerUp ht
  · cases h; exact .issue ht
  · exact .block hb (blockRow_of_blockStep h)

theorem Accepts.phase_eq {i : Instr} {s : State} (h : Accepts i s) : s.phase = .idle := by
  obtain ⟨r, ⟨hp, -, -⟩, -⟩ := h
  exact hp

theorem Accepts.valid {i : Instr} {s : State} (h : Accepts i s) : s.refuseCode ≠ .cfgN := by
  obtain ⟨r, ⟨-, hc, -⟩, -⟩ := h
  exact hc

/-! ### The invariant, row by row -/

/-- Writing a word keeps the words that were written, and adds its own. -/
theorem Buffer.get_put_isSome {b : Buffer} {i a : Nat} (v : Word)
    (h : a ≠ i → (Buffer.get a b).isSome = true) : (Buffer.get a (Buffer.put i v b)).isSome = true := by
  by_cases ha : a = i
  · rw [ha, Buffer.get_put_same]; rfl
  · rw [Buffer.get_put_other v b ha]; exact h ha

/-- A block that is not idle was validly constructed. -/
theorem Inv.valid {s : State} (h : Inv s) (hp : s.phase ≠ .idle) : s.refuseCode ≠ .cfgN :=
  fun hc => hp (h.invalid hc)

/-- Outside SETUP and SHIFT chip-select is high. -/
theorem Inv.csN_eq_true {s : State} (h : Inv s) (h1 : s.phase ≠ .setup) (h2 : s.phase ≠ .shift) :
    s.csN = true := by
  by_contra hc
  exact (h.chipSelect.1 (by simpa using hc)).elim h1 h2

theorem inv_nextTurn {s : State} (h : Inv s) : Inv (nextTurn s) :=
  { h with
    vectors := by
      obtain ⟨hr, hh, ht⟩ := h.vectors
      exact ⟨hr, hh, fun r hm => ht r (List.mem_of_mem_tail hm)⟩ }

theorem inv_popRequest {s : State} (h : Inv s) : Inv (popRequest s) :=
  { h with
    vectors := by
      obtain ⟨hr, hh, ht⟩ := h.vectors
      exact ⟨hr, fun r hm => hh r (List.mem_of_mem_tail hm), ht⟩ }

theorem inv_idleStep {s : State} (h : Inv s) : Inv (idleStep s) := { h with }

theorem inv_issueRequest {s : State} {r : Request} (h : Inv s) (hl : r.vec.length ≤ Config.lMax) :
    Inv (issueRequest r s) :=
  { h with
    vectors := by
      obtain ⟨hr, hh, ht⟩ := h.vectors
      refine ⟨hr, fun q hq => ?_, ht⟩
      rcases List.mem_append.1 hq with hq | hq
      · exact hh q hq
      · exact List.mem_singleton.1 hq ▸ hl }

theorem inv_powerUpChain {s : State} (h : Inv s) : Inv (powerUpChain s) :=
  { h with ghost := fun _ _ _ hd => .inl (drawnChain_mem hd) }

section
variable {s : State} (hhost : ∀ r ∈ s.host, r.vec.length ≤ Config.lMax)
  (hturns : ∀ r, Turn.issue r ∈ s.turns → r.vec.length ≤ Config.lMax)
  (hguard : Config.tGuardMinNs ≤ s.params.tGuardNs)
include hhost hturns hguard

/-- A block with its fields cleared has the invariant, whatever it was before: only the environment's vectors and
`T_GUARD` outlast the clearing. -/
theorem inv_clearBlock (ch : List Device) (d : Nat) {N : BitVec 8} {p : Phase} {b : Bool}
    {code : RefuseCode} (hp : p = .idle ∨ p = .recover) (hsize : code ≠ .cfgN → 1 ≤ N.toNat)
    (hstatus : b = true ↔ code ≠ .none) (hinvalid : code = .cfgN → p = .idle) :
    Inv { clearBlock s with
      chain := ch, draws := d, cfgN := N, phase := p, refused := b, refuseCode := code } where
  buffer := ⟨rfl, fun _ hc => by cases hc⟩
  full := nofun
  progress := fun _ i hi => absurd hi (Nat.not_lt_zero i)
  freq := (by decide : 1 ≤ Config.freqDefault.toNat ∧ Config.freqDefault.toNat ≤ Config.freqMax)
  chipSelect := by rcases hp with rfl | rfl <;> simp
  counter := ⟨Nat.zero_le _, by rcases hp with rfl | rfl <;> simp⟩
  size := hsize
  status := hstatus
  invalid := hinvalid
  onBus := by rcases hp with rfl | rfl <;> simp
  inRequest := by rcases hp with rfl | rfl <;> simp
  second := nofun
  vectors := ⟨Nat.zero_le _, hhost, hturns⟩
  ghost := nofun
  guard := hguard

theorem inv_resetBlock (n : Nat) : Inv (resetBlock n s) := by
  obtain ⟨ch, d, -, -, -, ⟨h1, h2, e⟩ | ⟨-, e⟩⟩ := resetBlock_cases n s <;> rw [e]
  · have hn : 1 ≤ (BitVec.ofNat 8 n).toNat := by
      rwa [BitVec.toNat_ofNat, Nat.mod_eq_of_lt (Nat.lt_succ_of_le h2)]
    exact inv_clearBlock hhost hturns hguard ch d (.inr rfl) (fun _ => hn) (by simp) (by simp)
  · exact inv_clearBlock hhost hturns hguard ch d (.inl rfl) (by simp) (by simp) (fun _ => rfl)

end

/-- A refusal at an idle block. The new code is the old one where one was recorded, so a valid block without a code
stays valid in size whatever the code says. -/
theorem inv_refuse {s : State} {code : RefuseCode} (h : Inv s) (hp : s.phase = .idle) (hc : code ≠ .none) :
    Inv (refuse code s) :=
  { h with
    size := by
      intro hne
      refine h.size fun hcfg => hne ?_
      have hr : s.refused = true := h.status.2 (by simp [hcfg])
      simp [hr, hcfg]
    status := by
      have := h.status
      cases hr : s.refused <;> simp_all
    invalid := fun _ => hp }

theorem inv_takeBusRequest {s : State} {op : Op} {c : Word} (h : Inv s) (hv : s.refuseCode ≠ .cfgN)
    (hc : c ∈ romWords s.params.rom) (hop : 1 ≤ transactionsOf op) : Inv (takeBusRequest op c s) :=
  { h with
    progress := nofun
    chipSelect := by simp
    counter := ⟨h.counter.1, nofun⟩
    invalid := fun hcfg => absurd hcfg hv
    onBus := fun _ => hc
    inRequest := fun _ => by simpa using hop
    second := nofun }

theorem inv_setFreq {s : State} {hz : BitVec 32} (h : Inv s) (h1 : 1 ≤ hz.toNat)
    (h2 : hz.toNat ≤ Config.freqMax) :
    Inv { s with freq := hz, resp := { s.resp with view := false }, respDone := true } :=
  { h with freq := ⟨h1, h2⟩ }

/-- The vector on the port fits it. -/
theorem Inv.portVec_length {s : State} (h : Inv s) : (portVec s).length ≤ Config.lMax := by
  obtain ⟨-, hh, -⟩ := h.vectors
  unfold portVec
  split
  · exact Nat.zero_le _
  · next r rest hs => exact hh r (hs ▸ List.mem_cons_self)

theorem inv_answer {s : State} {r : Resp} {d : Nat} (h : Inv s)
    (hr : r.vec = s.resp.vec ∨ r.vec.length = (portVec s).length) :
    Inv { s with resp := r, respDone := true, draws := d } :=
  { h with
    vectors := by
      obtain ⟨hv, hh, ht⟩ := h.vectors
      refine ⟨?_, hh, ht⟩
      rcases hr with hr | hr
      · exact hr ▸ hv
      · exact hr ▸ h.portVec_length }

theorem inv_endSetup {s : State} (h : Inv s) (hp : s.phase = .setup) : Inv (endSetup s) :=
  have hn : 1 ≤ s.n := h.size (h.valid (by simp [hp]))
  { h with
    progress := fun _ i hi => absurd hi (Nat.not_lt_zero i)
    chipSelect := by simpa [hp] using h.chipSelect
    counter := ⟨Nat.zero_le _, fun _ => hn⟩
    invalid := fun hc => absurd hc (h.valid (by simp [hp]))
    onBus := fun _ => h.onBus (.inl hp)
    inRequest := fun _ => h.inRequest (.inl hp)
    second := fun _ => h.second (by simp [hp]) }

theorem inv_exchange_goes_on {s : State} {rx : Word} {d : Nat} (h : Inv s) (hp : s.phase = .shift)
    (hk : s.k + 1 < s.n) :
    Inv { s with rbuf := Buffer.put s.k rx s.rbuf, k := s.k + 1, respDone := false, draws := d } :=
  { h with
    buffer := h.buffer.writeWord rx (by omega)
    full := fun hw i hi => Buffer.get_put_isSome rx fun _ => h.full hw i hi
    progress := fun _ i hi => Buffer.get_put_isSome rx fun hne =>
      h.progress hp i (Nat.lt_of_le_of_ne (Nat.le_of_lt_succ hi) hne)
    counter := ⟨hk.le, fun _ => hk⟩ }

/-- The last exchange: all N words are written now, and the chain has latched its answers to `CUR_CMD`. -/
theorem inv_exchange_closes {s : State} {rx : Word} {d : Nat} {ch : List Device} (h : Inv s)
    (hp : s.phase = .shift) (hk : s.k + 1 = s.n)
    (hch : ∀ x ∈ ch, x.pendCmd = none ∨ x.pendCmd = some s.curCmd) :
    Inv { s with
      rbuf := Buffer.put s.k rx s.rbuf, k := s.n, written := true, csN := true, phase := .recover
      lastCmd := some s.curCmd, respDone := false, chain := ch, draws := d } :=
  { h with
    buffer := h.buffer.writeWord rx (by omega)
    full := fun _ i (hi : i < s.n) => Buffer.get_put_isSome rx fun hne => h.progress hp i (by omega)
    progress := nofun
    chipSelect := by simp
    counter := ⟨le_rfl, nofun⟩
    invalid := fun hc => absurd hc (h.valid (by simp [hp]))
    onBus := by simp
    inRequest := by simp
    second := fun _ => h.second (by simp [hp])
    ghost := fun c hc => Option.some.inj hc ▸ hch }

theorem inv_startSecond {s : State} (h : Inv s) (hp : s.phase = .recover)
    (ho : s.curOp = some .read ∨ s.curOp = some .readAngle) :
    Inv { s with
      txn := .two, curCmd := s.params.rom.nop, csN := false, phase := .setup, respDone := false } :=
  { h with
    progress := nofun
    chipSelect := by simp
    counter := ⟨h.counter.1, nofun⟩
    invalid := fun hc => absurd hc (h.valid (by simp [hp]))
    onBus := fun _ => List.mem_map_of_mem (f := romWord s.params.rom) (a := Cmd.nop) (by simp [cmdTable])
    inRequest := fun _ => by rcases ho with ho | ho <;> simp [ho, transactionsOf]
    second := fun _ _ => ho }

/-- From RECOVER to IDLE, whatever the response port shows, its vector staying as it is. -/
theorem inv_toIdle {s : State} {r : Resp} {b : Bool} (h : Inv s) (hp : s.phase = .recover)
    (hr : r.vec = s.resp.vec) : Inv { s with phase := .idle, resp := r, respDone := b } :=
  { h with
    progress := nofun
    chipSelect := by simp [h.csN_eq_true, hp]
    counter := ⟨h.counter.1, nofun⟩
    invalid := fun _ => rfl
    onBus := by simp
    inRequest := by simp
    second := fun hne => absurd rfl hne
    vectors := hr ▸ h.vectors }

theorem BlockRow.inv {s t : State} (h : Inv s) (hrow : BlockRow s t) : Inv t := by
  cases hrow with
  | waits => exact inv_idleStep h
  | rejects hp ho => exact inv_popRequest (inv_refuse h hp (portRequest_reject_ne_none ho))
  | refuses ha hc => exact inv_popRequest (inv_refuse h ha.phase_eq hc)
  | takes ha hc hop => exact inv_popRequest (inv_takeBusRequest h ha.valid hc hop)
  | setsFreq _ h1 h2 => exact inv_popRequest (inv_setFreq h h1 h2)
  | answers _ hr => exact inv_popRequest (inv_answer h hr)
  | startsShift hp => exact inv_endSetup h hp
  | goesOn hp hk => exact inv_exchange_goes_on h hp hk
  | closes hp hk hch => exact inv_exchange_closes h hp hk hch
  | startsSecond hp _ ho => exact inv_startSecond h hp ho
  | finishes hp => exact inv_toIdle h hp rfl
  | rests hp => exact inv_toIdle h hp rfl

theorem StepRow.inv {s t : State} (h : Inv s) (hrow : StepRow s t) : Inv t := by
  have hn := inv_nextTurn h
  cases hrow with
  | reset ht =>
    obtain ⟨-, hhost, hturns⟩ := hn.vectors
    exact inv_resetBlock hhost hturns hn.guard _
  | powerUp => exact inv_powerUpChain hn
  | issue ht =>
    obtain ⟨-, -, hturns⟩ := h.vectors
    exact inv_issueRequest hn (hturns _ (List.mem_of_mem_head? ht))
  | block _ hb => exact hb.inv hn

/-- Settles O48: the step is one of the rows, and every row keeps the invariant. -/
theorem stepKeepsInvariant : Obligations.StepKeepsInvariant := fun _ _ h hstep => (stepRow_of_step hstep).inv h

/-- Settles O49: the state after reset is what a reset with N = 1 makes of it. -/
theorem resetHasInvariant : Obligations.ResetHasInvariant := by
  have h : resetBlock 1 State.reset = State.reset := rfl
  unfold Obligations.ResetHasInvariant
  rw [← h]
  exact inv_resetBlock (s := State.reset) nofun nofun le_rfl 1

/-! ### What the block's rows leave unchanged -/

theorem BlockRow.rbuf {s t : State} (h : BlockRow s t) :
    (s.phase ≠ .shift → t.rbuf = s.rbuf) ∧ ∀ a, a ≠ s.k → Buffer.get a t.rbuf = Buffer.get a s.rbuf := by
  cases h with
  | goesOn hp | closes hp => exact ⟨fun hne => absurd hp hne, fun a ha => Buffer.get_put_other _ _ ha⟩
  | _ => exact ⟨fun _ => rfl, fun _ _ => rfl⟩

theorem BlockRow.params {s t : State} (h : BlockRow s t) : t.params = s.params := by
  cases h <;> rfl

theorem BlockRow.cfgN {s t : State} (h : BlockRow s t) : t.cfgN = s.cfgN := by
  cases h <;> rfl

/-- Only the row of an accepted SETFREQ changes `FREQ`. -/
theorem BlockRow.freq {s t : State} (h : BlockRow s t) (hne : t.freq ≠ s.freq) : Accepts (.setfreq t.freq) s := by
  cases h with
  | setsFreq ha => exact ha
  | _ => exact absurd rfl hne

theorem BlockRow.refusal {s t : State} (h : BlockRow s t) (hr : s.refused = true) :
    t.refused = true ∧ t.refuseCode = s.refuseCode := by
  cases h with
  | rejects | refuses => exact ⟨rfl, by simp [hr]⟩
  | _ => exact ⟨hr, rfl⟩

/-- Settles O51: outside the block's rows only a reset touches the buffer, and among them only the exchanges write. -/
theorem onlyExchangesWriteBuffer : Obligations.OnlyExchangesWriteBuffer := by
  intro s t hno hstep
  cases stepRow_of_step hstep with
  | reset ht => exact absurd ht (hno _)
  | powerUp | issue => exact ⟨fun _ => rfl, fun _ _ => rfl⟩
  | block _ hb => exact hb.rbuf

theorem resetBlock_params (n : Nat) (s : State) : (resetBlock n s).params = s.params := by
  obtain ⟨ch, d, -, -, -, ⟨-, -, e⟩ | ⟨-, e⟩⟩ := resetBlock_cases n s <;> rw [e] <;> rfl

/-- Settles O52: of the rows only a reset's and SETFREQ's write the configuration, and none the parameters. -/
theorem configurationIsFixed : Obligations.ConfigurationIsFixed := by
  intro s t hstep
  cases stepRow_of_step hstep with
  | reset ht => exact ⟨resetBlock_params _ _, fun hno => absurd ht (hno _)⟩
  | powerUp | issue => exact ⟨rfl, fun _ => ⟨rfl, fun hne => absurd rfl hne⟩⟩
  | block hm hb => exact ⟨hb.params, fun _ => ⟨hb.cfgN, fun hne => ⟨hm, hb.freq hne⟩⟩⟩

/-- Settles O53: a refusal keeps the code that is recorded, and no other row but a reset's writes the status. -/
theorem refusalIsSticky : Obligations.RefusalIsSticky := by
  intro s t hno hr hstep
  cases stepRow_of_step hstep with
  | reset ht => exact absurd ht (hno _)
  | powerUp | issue => exact ⟨hr, rfl⟩
  | block _ hb => exact hb.refusal hr

/-! ### Reset -/

/-- Settles O54: no window is open, so the chain and the free values stay. -/
theorem resetGivesResetState : Obligations.ResetGivesResetState := by
  intro s n ht h1 h2 hp
  have hw : windowOpen (nextTurn s) = false := by rcases hp with hp | hp <;> simp [windowOpen, hp]
  obtain ⟨ch, d, -, hclosed, -, ⟨-, -, e⟩ | ⟨hn | hn, -⟩⟩ := resetBlock_cases n (nextTurn s)
  · obtain ⟨rfl, rfl⟩ := hclosed hw
    rw [step_reset ht, e]
    rfl
  · omega
  · exact absurd h2 (Nat.not_le.2 hn)

end Sys2Proof.Machine

/-! # Encodings and the request port

First the decoder's answer to each kind of request word, and the encoder's words for the instruction it accepts; then
the step an idle block makes of that answer, and the steps that leave the port alone; then the statements. -/

namespace Sys2Proof

/-! ### The decoder's checks, one by one -/

/-- The check of R89, field by field. -/
theorem unusedClear_iff {op : Op} {w : ReqWord} {len : Nat} :
    unusedClear op w len = true ↔
      fieldRsv w = 0#1 ∧ (usesCsel op = false → fieldCsel w = 0#3) ∧ (usesIdx op = false → fieldIdx w = 0#8) ∧
      (usesWord op = false → fieldWord w = 0#16) ∧ (usesHz op = false → fieldHz w = 0#32) ∧
      (usesVec op = false → len = 0) := by
  simp only [unusedClear, Bool.and_eq_true, Bool.or_eq_true, beq_iff_eq, and_assoc, ← Bool.not_eq_true,
    or_iff_not_imp_left]

theorem usesCsel_iff (op : Op) : usesCsel op = true ↔ op ∈ [Op.exec, .read, .readSeq] := by
  cases op <;> decide

theorem usesIdx_iff (op : Op) : usesIdx op = true ↔ op ∈ [Op.rdbuf, .maskb, .errIdx] := by
  cases op <;> decide

theorem usesWord_iff (op : Op) : usesWord op = true ↔ op ∈ [Op.mask, .parity, .deg, .rad] := by
  cases op <;> decide

theorem usesHz_iff (op : Op) : usesHz op = true ↔ op = .setfreq := by cases op <;> decide

theorem usesVec_iff (op : Op) : usesVec op = true ↔ op = .maskb := by cases op <;> decide

/-- The first check of R93: the opcode. -/
theorem decodeRequest_reservedOpcode {w : ReqWord} (len : Nat) (h : opOfCode (fieldOp w) = none) :
    decodeRequest w len = .reject .rsvdOp := by
  simp [decodeRequest, h]

/-- The second check of R93: the fields and the vector that the operation does not use. -/
theorem decodeRequest_strayField {w : ReqWord} {len : Nat} {op : Op} (h : opOfCode (fieldOp w) = some op)
    (hu : unusedClear op w len = false) : decodeRequest w len = .reject .rsvdField := by
  simp [decodeRequest, h, hu]

/-- The third check of R93: the selector. -/
theorem decodeRequest_reservedSelector {w : ReqWord} {len : Nat} {op : Op} (h : opOfCode (fieldOp w) = some op)
    (hu : unusedClear op w len = true) (hc : usesCsel op = true) (hs : cselOk (fieldCsel w) = false) :
    decodeRequest w len = .reject .rsvdCsel := by
  simp [decodeRequest, h, hu, hc, hs]

/-! ### Decoding what the encoder writes -/

/-- Every instruction's words have the form that R80, R87 and R103 give them. -/
theorem encodingForm (i : Instr) : Laws.EncodingForm.Statement i := by
  open Laws.EncodingForm in
  cases i with
  | exec csel => exact exec csel
  | read csel => exact read csel
  | readSeq csel => exact readSeq csel
  | readAngle => exact readAngle
  | readAngleSeq => exact readAngleSeq
  | rdbuf idx => exact rdbuf idx
  | setfreq hz => exact setfreq hz
  | mask w => exact mask w
  | maskb n => exact maskb n
  | parity w => exact parity w
  | errIdx idx => exact errIdx idx
  | errAny => exact errAny
  | deg w => exact deg w
  | rad w => exact rad w
  | cmdNop => exact cmdNop
  | cmdClrerr => exact cmdClrerr
  | cmdDiag => exact cmdDiag
  | cmdMag => exact cmdMag
  | cmdAngle => exact cmdAngle

/-- The check of R89 on the operands that a request is packed from. -/
def operandsClear (op : Op) (csel : BitVec 3) (idx : BitVec 8) (word : Word) (hz : BitVec 32) (len : Nat) : Bool :=
  (usesCsel op || csel == 0#3) && (usesIdx op || idx == 0#8) && (usesWord op || word == 0#16)
    && (usesHz op || hz == 0#32) && (usesVec op || len == 0)

theorem unusedClear_pack (op : Op) (csel : BitVec 3) (idx : BitVec 8) (word : Word) (hz : BitVec 32) (len : Nat) :
    unusedClear op (packRequest op csel idx word hz) len = operandsClear op csel idx word hz len := by
  simp [unusedClear, operandsClear]

/-- An instruction with a request word is given back where its unused operands are zero and its selector is legal. -/
theorem decode_encode_of_pack {i : Instr} {op : Op} {csel : BitVec 3} {idx : BitVec 8} {word : Word}
    {hz : BitVec 32} {len : Nat} (he : encode i = .request (packRequest op csel idx word hz))
    (hu : operandsClear op csel idx word hz len = true) (hs : usesCsel op = true → cselOk csel = true) :
    decode (encode i) len = .instr i := by
  have hform := encodingForm i
  rw [Laws.EncodingForm.Statement, he] at hform
  obtain ⟨-, op', hop, hi⟩ := hform
  have hd : decodeRequest (packRequest op csel idx word hz) len = .accept i := by
    obtain rfl : op = op' := by simpa using hop
    exact decodeRequest_accept.2 ⟨op, hop, by rw [unusedClear_pack, hu], by simpa using hs, hi⟩
  simp [decode, he, hd]

/-- The five words of the default ROM differ, so each names its command. -/
theorem decodeCommand_romWord (c : Cmd) : decodeCommand defaultRom (romWord defaultRom c) = some c := by
  cases c <;> decide

theorem decode_encode_of_command {i : Instr} {w : Word} (len : Nat) (he : encode i = .command w) :
    decode (encode i) len = .instr i := by
  have hform := encodingForm i
  rw [Laws.EncodingForm.Statement, he] at hform
  obtain ⟨c, rfl, rfl⟩ := hform
  simp [decode, he, decodeCommand_romWord]

/-- The round trip with an empty vector. -/
theorem decode_encode {i : Instr} (hwf : i.wellFormed = true) : decode (encode i) 0 = .instr i := by
  cases i with
  | exec | read | readSeq => exact decode_encode_of_pack rfl rfl fun _ => hwf
  | readAngle | readAngleSeq | rdbuf | setfreq | mask | maskb | parity | errIdx | errAny | deg | rad =>
    exact decode_encode_of_pack rfl rfl nofun
  | cmdNop | cmdClrerr | cmdDiag | cmdMag | cmdAngle => exact decode_encode_of_command 0 rfl

/-- Settles O1: MASKB passes the decoder's checks whatever the vector's length, the others with an empty vector. -/
theorem decodeEncodeRoundTrip : Obligations.DecodeEncodeRoundTrip := by
  rintro i len hwf (rfl | ⟨n, rfl⟩)
  · exact decode_encode hwf
  · exact decode_encode_of_pack rfl rfl nofun

/-! ### Encoding what the decoder accepts -/

/-- A request word whose unused fields are zero is what the encoder writes for its instruction. -/
theorem encode_instrOf {op : Op} {w : ReqWord} {len : Nat} (hop : opOfCode (fieldOp w) = some op)
    (hu : unusedClear op w len = true) : encode (instrOf op w) = .request w := by
  obtain ⟨hr, hc, hi, hw, hh, -⟩ := unusedClear_iff.1 hu
  have hp := pack_fields op w (opCode_of_opOfCode hop) hr
  cases op with
  | exec | read | readSeq => rw [hi rfl, hw rfl, hh rfl] at hp; exact congrArg _ hp
  | readAngle | readAngleSeq | errAny => rw [hc rfl, hi rfl, hw rfl, hh rfl] at hp; exact congrArg _ hp
  | rdbuf | maskb | errIdx => rw [hc rfl, hw rfl, hh rfl] at hp; exact congrArg _ hp
  | setfreq => rw [hc rfl, hi rfl, hw rfl] at hp; exact congrArg _ hp
  | mask | parity | deg | rad => rw [hc rfl, hi rfl, hh rfl] at hp; exact congrArg _ hp

/-- The instruction's own check (R90) is the decoder's third. -/
theorem instrOf_wellFormed {op : Op} {w : ReqWord} (hs : usesCsel op = true → cselOk (fieldCsel w) = true) :
    (instrOf op w).wellFormed = true := by
  cases op with
  | exec | read | readSeq => exact hs rfl
  | _ => rfl

/-- Settles O2: of an accepted word nothing is left that its instruction does not say. -/
theorem acceptedRequestIsItsEncoding : Obligations.AcceptedRequestIsItsEncoding := by
  intro w len i h
  obtain ⟨op, hop, hu, hs, rfl⟩ := decodeRequest_accept.1 h
  refine ⟨encode_instrOf hop hu, instrOf_wellFormed hs, ?_⟩
  obtain ⟨-, -, -, -, -, hv⟩ := unusedClear_iff.1 hu
  by_cases hm : op = .maskb
  · exact .inr ⟨fieldIdx w, by rw [hm]; rfl⟩
  · exact .inl (hv (by rwa [← Bool.not_eq_true, usesVec_iff]))

end Sys2Proof

namespace Sys2Proof.Machine

/-! ### What an idle block makes of the decoder's answer -/

theorem step_idle {s : State} (hb : BlockMoves s) (hp : s.phase = .idle) : step s = stepIdle (nextTurn s) :=
  (step_block hb).trans (blockStep_idle hp)

/-- The step of a block that offers a request is the decoder's answer, carried out. -/
theorem step_accepted {s : State} {r : Request} {i : Instr} (hb : BlockMoves s) (ho : Offers r s)
    (hd : decodeRequest r.word r.vec.length = .accept i) : step s = retire (exec i (nextTurn s)) := by
  rw [step_idle hb ho.1, stepIdle, portRequest_nextTurn, portRequest_offers ho, hd]

theorem step_rejected {s : State} {r : Request} {code : RefuseCode} (hb : BlockMoves s) (ho : Offers r s)
    (hd : decodeRequest r.word r.vec.length = .reject code) :
    step s = .next (popRequest (refuse code (nextTurn s))) := by
  rw [step_idle hb ho.1, stepIdle, portRequest_nextTurn, portRequest_offers ho, hd]
  rfl

/-- Settles O5: the state that `exec` sees differs by the used turn only. -/
theorem stepRunsRequest : Obligations.StepRunsRequest := fun _ _ _ hb ho hd => step_accepted hb ho hd

/-- Settles O7: the opcode is the first check, so nothing else of the word matters. -/
theorem reservedOpcodeRefused : Obligations.ReservedOpcodeRefused := by
  intro s r hb ho hop
  have hnone : opOfCode (fieldOp r.word) = none := by rcases hop with h | h <;> rw [h] <;> rfl
  exact step_rejected hb ho (decodeRequest_reservedOpcode _ hnone)

/-- Settles O8: each of the six grounds contradicts its own part of the check. -/
theorem unusedFieldRefused : Obligations.UnusedFieldRefused := by
  intro s r op hb ho hop hstray
  refine step_rejected hb ho (decodeRequest_strayField hop ?_)
  rw [← Bool.not_eq_true]
  intro hu
  obtain ⟨hr, hc, hi, hw, hh, hv⟩ := unusedClear_iff.1 hu
  simp only [← Bool.not_eq_true, usesCsel_iff, usesIdx_iff, usesWord_iff, usesHz_iff, usesVec_iff,
    List.length_eq_zero_iff] at hc hi hw hh hv
  rcases hstray with h | ⟨hn, h⟩ | ⟨hn, h⟩ | ⟨hn, h⟩ | ⟨hn, h⟩ | ⟨hn, h⟩
  · simp [hr] at h
  · exact h (hc hn)
  · exact h (hi hn)
  · exact h (hw hn)
  · exact h (hh hn)
  · exact h (hv hn)

/-- Settles O9: with no stray field the first check that fails is the selector's. -/
theorem reservedSelectorRefused : Obligations.ReservedSelectorRefused := by
  intro s r op hb ho hop hsel h5 hr hi hw hh hv
  have hc : usesCsel op = true := (usesCsel_iff op).2 hsel
  have hu : unusedClear op r.word r.vec.length = true :=
    unusedClear_iff.2 ⟨hr, by simp [hc], fun _ => hi, fun _ => hw, fun _ => hh, fun _ => by simp [hv]⟩
  exact step_rejected hb ho (decodeRequest_reservedSelector hop hu hc (by simpa [cselOk] using h5))

/-! ### The steps that take no request -/

theorem resetBlock_host (n : Nat) (s : State) : (resetBlock n s).host = s.host := by
  obtain ⟨ch, d, -, -, -, ⟨-, -, e⟩ | ⟨-, e⟩⟩ := resetBlock_cases n s <;> rw [e] <;> rfl

theorem busy_iff (s : State) : busy s = true ↔ s.phase ≠ .idle := by simp [busy]

/-- Only the rows of an idle block take a request from the port. -/
theorem BlockRow.host {s t : State} (h : BlockRow s t) (hp : s.phase ≠ .idle) : t.host = s.host := by
  cases h with
  | waits hi | rejects hi => exact absurd hi hp
  | refuses ha | takes ha | setsFreq ha | answers ha => exact absurd ha.phase_eq hp
  | startsShift | goesOn | closes | startsSecond | finishes | rests => rfl

/-- Settles O13: of a busy block's steps only the host's own turn touches the waiting requests. -/
theorem requestsWaitWhileBusy : Obligations.RequestsWaitWhileBusy := by
  intro s t hbusy hstep
  cases stepRow_of_step hstep with
  | reset ht => exact ⟨by simp [ht], fun _ => resetBlock_host _ _⟩
  | powerUp ht => exact ⟨by simp [ht], fun _ => rfl⟩
  | issue ht =>
    refine ⟨fun r hr => ?_, fun hno => absurd ht (hno _)⟩
    cases ht.symm.trans hr
    rfl
  | block hm hb =>
    refine ⟨fun r hr => ?_, fun _ => hb.host ((busy_iff s).1 hbusy)⟩
    rcases hm with hm | hm <;> simp [hm] at hr

/-- Settles O14: an idle block's row with nothing on the port, and the host's turn. -/
theorem idleBlockWaits : Obligations.IdleBlockWaits := by
  refine fun s => ⟨fun hb hp hh => ?_, fun r ht => step_issue ht⟩
  rw [step_idle hb hp, stepIdle, portRequest_nextTurn, portRequest_none hh]
  rfl

/-! ### The status outputs -/

theorem refuseCodeBits_ne_zero (code : RefuseCode) : refuseCodeBits code ≠ 0#3 ↔ code ≠ .none := by
  cases code <;> decide

/-- A refusal shows in ST_REFUSED, and in ST_CODE if it is the first. -/
theorem statusOf_refuse (code : RefuseCode) (s : State) : statusOf (refuse code s) = { statusOf s with
    stRefused := true
    stCode := if (statusOf s).stRefused then (statusOf s).stCode else refuseCodeBits code } :=
  congrArg (fun c => (⟨busy s, true, c, s.cfgN, s.freq⟩ : Status)) (apply_ite refuseCodeBits _ _ _)

theorem execSetfreq_inRange {s : State} {hz : BitVec 32} (h1 : 1 ≤ hz.toNat) (h2 : hz.toNat ≤ Config.freqMax) :
    execSetfreq hz s = .next (complete { s.resp with view := false } { s with freq := hz }) :=
  if_neg (by omega)

/-- Settles O60: the outputs are wires of the state, and each event writes the fields they show. -/
theorem statusOutputsShowState : Obligations.StatusOutputsShowState := by
  refine ⟨fun s => ⟨busy_iff s, rfl, rfl, rfl, rfl⟩, rfl, ?inv, ?refused, ?setfreq, ?taken, ?reset⟩
  case inv =>
    intro s h
    exact h.status.trans (refuseCodeBits_ne_zero _).symm
  case refused =>
    intro s r code hb ho hd
    exact ⟨_, step_rejected hb ho hd, statusOf_refuse code (nextTurn s)⟩
  case setfreq =>
    intro s hz h1 h2
    exact ⟨_, execSetfreq_inRange h1 h2, rfl⟩
  case taken =>
    intro s csel h
    obtain ⟨c, -, he⟩ := enc_legal s.params.rom h
    exact ⟨_, takeSelected_legal he, rfl⟩
  case reset =>
    intro s n ht h1 h2
    refine ⟨_, step_reset ht, ?_⟩
    obtain ⟨ch, d, -, -, -, ⟨-, -, e⟩ | ⟨hn | hn, -⟩⟩ := resetBlock_cases n (nextTurn s)
    · rw [e]; rfl
    · omega
    · exact absurd h2 (Nat.not_le.2 hn)

/-! ### Words and lines of the spec -/

/-- Settles O3: the decoder and the assembler, run on the words and lines. -/
theorem specWordsDecodeAndAssemble : Obligations.SpecWordsDecodeAndAssemble := by
  unfold Obligations.SpecWordsDecodeAndAssemble
  decide

end Sys2Proof.Machine

/-! # The command encoder

First a command word bit by bit, and the step of a block in SHIFT; then the statements. -/

namespace Sys2Proof

/-- R100 and R101 as one table of the word's bits. -/
theorem getLsbD_commandWord (base : BitVec 14) (read parity : Bool) (i : Nat) :
    (commandWord base read parity).getLsbD i =
      (base.getLsbD i || decide (i = 14) && read || decide (i = 15) && parity) := by
  have hflag {j : Nat} (hj : j < 16) : (BitVec.twoPow 16 j).getLsbD i = decide (i = j) := by
    simp [BitVec.getLsbD_twoPow, hj, eq_comm]
  have hread : (0x4000#16).getLsbD i = decide (i = 14) := hflag (j := 14) (by decide)
  have hparity : (0x8000#16).getLsbD i = decide (i = 15) := hflag (j := 15) (by decide)
  have hbase : (base.setWidth 16).getLsbD i = base.getLsbD i := by
    rw [BitVec.getLsbD_setWidth]
    by_cases hi : i < 16
    · simp [hi]
    · simp [hi, BitVec.getLsbD_of_ge base i (by omega)]
  cases read <;> cases parity <;> simp [commandWord, hread, hparity, hbase]

/-- A word is put together again from the three parts it is taken apart into. -/
theorem commandWord_parts (w : Word) :
    commandWord (w.extractLsb' 0 14) (w.getLsbD 14) (w.getLsbD 15) = w := by
  refine BitVec.eq_of_getLsbD_eq fun i hi => ?_
  rw [getLsbD_commandWord]
  obtain h | rfl | rfl : i < 14 ∨ i = 14 ∨ i = 15 := by omega
  · simp [h, h.ne, show i ≠ 15 by omega]
  · simp
  · simp

/-- Settles O4: the parts are the word's own bits. -/
theorem everyWordIsBaseAndFlags : Obligations.EveryWordIsBaseAndFlags :=
  fun w => ⟨_, _, _, (commandWord_parts w).symm, rfl, rfl, rfl⟩

end Sys2Proof

namespace Sys2Proof.Machine

theorem step_shift {s : State} (hb : BlockMoves s) (hp : s.phase = .shift) :
    step s = exchange s.curCmd (nextTurn s) :=
  (step_block hb).trans (blockStep_shift hp)

/-- Settles O6: both the step in SHIFT and the meaning of a command are the exchange of its word. -/
theorem stepRunsCommandWord : Obligations.StepRunsCommandWord := by
  refine fun s hb hp => ⟨fun c hc => ?_, fun _ => step_shift hb hp⟩
  have hw : romWord s.params.rom c = s.curCmd := decodeCommand_word hc
  refine ⟨hw, ?_⟩
  calc step s = exchange s.curCmd (nextTurn s) := step_shift hb hp
    _ = exchange (romWord s.params.rom c) (nextTurn s) := by rw [hw]
    _ = exec (cmdInstr c) (nextTurn s) := (exec_cmdInstr c (nextTurn s)).symm

/-- Settles O11: `ENC` has no word for such a selector, and the three operations ask it first. -/
theorem encoderRefusesReservedSelector : Obligations.EncoderRefusesReservedSelector := by
  intro s csel h
  have he : enc s.params.rom csel = none := enc_reserved _ h
  exact ⟨takeSelected_reserved he, takeSelected_reserved he, takeSelected_reserved he⟩

/-- Settles O15: `ENC` answers the selected command's word, and the three operations are taken with it. -/
theorem selectedBusRequestsTaken : Obligations.SelectedBusRequestsTaken := by
  intro s csel h
  obtain ⟨c, hc, he⟩ := enc_legal s.params.rom h
  exact ⟨c, hc, takeSelected_legal he, takeSelected_legal he, takeSelected_legal he⟩

end Sys2Proof.Machine

/-! # The transaction executor

First the chip-select window as one state per exchange, and the run from SETUP through all its exchanges, whatever
the chain's length; then whole transactions and requests; then the single steps and the frames. -/

namespace Sys2Proof.Machine

/-! ### The buffer, determined by what it reads -/

/-- In a canonical buffer a position reads as its own cell. -/
theorem Buffer.get_eq_some_iff {b : Buffer} (h : Buffer.wf b = true) (i : Nat) (w : Word) :
    Buffer.get i b = some w ↔ (i, w) ∈ b := by
  rw [Buffer.wf_iff] at h
  induction b with
  | nil => simp [Buffer.get]
  | cons c rest ih =>
    obtain ⟨j, v⟩ := c
    obtain ⟨hj, hrest⟩ := List.pairwise_cons.1 h
    by_cases hij : j = i
    · subst hij
      have hnot : (j, w) ∉ rest := fun hm => Nat.lt_irrefl j (hj _ hm)
      simp [Buffer.get, hnot, eq_comm]
    · simp [Buffer.get, hij, ih hrest, Ne.symm hij]

/-- Two canonical buffers that read alike are equal. -/
theorem Buffer.ext_get {a b : Buffer} (ha : Buffer.wf a = true) (hb : Buffer.wf b = true)
    (h : ∀ i, Buffer.get i a = Buffer.get i b) : a = b := by
  have hasymm : Std.Asymm fun x y : Nat × Word => x.1 < y.1 := ⟨fun _ _ => Nat.lt_asymm⟩
  refine ((Buffer.wf_iff a).1 ha).eq_of_mem_iff ((Buffer.wf_iff b).1 hb) fun ⟨i, w⟩ => ?_
  rw [← Buffer.get_eq_some_iff ha, ← Buffer.get_eq_some_iff hb, h]

/-- The buffer after the words `rx 0`, `rx 1`, … of `j` exchanges. -/
def Buffer.putFirst (rx : Nat → Word) : (j : Nat) → Buffer → Buffer
  | 0, b => b
  | j + 1, b => Buffer.put j (rx j) (Buffer.putFirst rx j b)

theorem Buffer.get_putFirst (rx : Nat → Word) (i j : Nat) (b : Buffer) :
    Buffer.get i (Buffer.putFirst rx j b) = if i < j then some (rx i) else Buffer.get i b := by
  induction j with
  | zero => rfl
  | succ j ih =>
    rw [Buffer.putFirst]
    by_cases hij : i = j
    · subst hij
      rw [Buffer.get_put_same, if_pos (Nat.lt_succ_self i)]
    · rw [Buffer.get_put_other _ _ hij, ih]
      simp only [show i < j + 1 ↔ i < j by omega]

theorem Buffer.putFirst_wf {b : Buffer} (h : Buffer.wf b = true) (rx : Nat → Word) (j : Nat) :
    Buffer.wf (Buffer.putFirst rx j b) = true := by
  induction j with
  | zero => exact h
  | succ j ih => exact Buffer.put_wf j (rx j) ih

/-- A position outside the buffer's bounds reads as unwritten. -/
theorem Buffer.get_of_within {n i : Nat} {b : Buffer} (h : Buffer.within n b) (hi : n ≤ i) :
    Buffer.get i b = none := by
  induction b with
  | nil => rfl
  | cons c rest ih =>
    have hc : c.1 < n := h c List.mem_cons_self
    rw [Buffer.get, if_neg (by omega), ih fun d hd => h d (List.mem_cons_of_mem _ hd)]

/-! ### One exchange -/

theorem exchange_before_last {s s' : State} {rx : Word} (c : Word) (hx : exchangeWord s.k s = (rx, s'))
    (h : s.k + 1 < s.n) :
    exchange c s = .next { writeWord s.k rx s' with k := s.k + 1, respDone := false } := by
  simp [exchange, show s.k < s.n by omega, hx, h]

theorem exchange_last {s s' : State} {rx : Word} (c : Word) (hx : exchangeWord s.k s = (rx, s'))
    (h : s.k + 1 = s.n) : exchange c s = .next (endWindow c (writeWord s.k rx s')) := by
  simp [exchange, hx, ← h]

theorem exchange_past_last {s : State} (c : Word) (h : s.n ≤ s.k) : exchange c s = .fault .noTransition :=
  if_neg (Nat.not_lt.2 h)

/-- The end of a window in a chain of N devices (R143). -/
theorem endWindow_fits {s : State} (c : Word) (h : s.chain.length = s.n) : endWindow c s = { s with
    k := s.n, written := true, csN := true, phase := .recover, lastCmd := some c, respDone := false
    chain := latched c 0 s.draws s.chain, draws := s.draws + s.chain.length } := by
  obtain ⟨ch, e, -, -, hch⟩ := endWindow_eq c s
  rw [e, hch h]

/-- The end of a window in a chain of another length (U6). -/
theorem endWindow_misfit {s : State} (c : Word) (h : s.chain.length ≠ s.n) : endWindow c s = { s with
    k := s.n, written := true, csN := true, phase := .recover, lastCmd := some c, respDone := false
    chain := drawnChain s.draws s.chain, draws := s.draws + s.chain.length } := by
  have e : latchChain c (driveCs true s) = drawChain (driveCs true s) := if_neg h
  rw [endWindow, e]
  rfl

/-- The end of a window sets K itself, whatever it was. -/
theorem endWindow_counter (c : Word) (s : State) (j : Nat) : endWindow c { s with k := j } = endWindow c s := by
  by_cases h : s.chain.length = s.n
  · rw [endWindow_fits c h, endWindow_fits (s := { s with k := j }) c h]; rfl
  · rw [endWindow_misfit c h, endWindow_misfit (s := { s with k := j }) c h]; rfl

/-! ### The chip-select window, exchange by exchange -/

/-- The word that the window's exchange at position `i` receives: the pending word (R142), or the window's `i`-th
free value where the chain's length is not N (U6). -/
def windowWord (s : State) (i : Nat) : Word :=
  if s.chain.length = s.n then ((s.chain[i]?).map Device.pend).getD 0#16 else Config.draw16 (s.draws + i)

/-- The free values that a window's first `j` exchanges use. -/
def windowDraws (s : State) (j : Nat) : Nat := if s.chain.length = s.n then 0 else j

/-- The state with `j` exchanges of the window done that opens in the SETUP state `s`. -/
def inWindow (j : Nat) (s : State) : State :=
  { s with
    rbuf := Buffer.putFirst (windowWord s) j s.rbuf, phase := .shift, k := j, respDone := false
    draws := s.draws + windowDraws s j }

theorem windowWord_fits {s : State} {i : Nat} {d : Device} (h : s.chain.length = s.n)
    (hd : s.chain[i]? = some d) : windowWord s i = d.pend := by
  simp [windowWord, h, hd]

theorem windowWord_misfit {s : State} (h : s.chain.length ≠ s.n) (i : Nat) :
    windowWord s i = Config.draw16 (s.draws + i) := if_neg h

theorem inWindow_zero (s : State) : inWindow 0 s = endSetup s := by
  simp [inWindow, windowDraws, Buffer.putFirst, endSetup]

theorem exchangeWord_inWindow {s : State} {j : Nat} (hj : j < s.n) :
    exchangeWord j (inWindow j s) =
      (windowWord s j, { inWindow j s with draws := s.draws + windowDraws s (j + 1) }) := by
  by_cases h : s.chain.length = s.n
  · have hd : s.chain[j]? = some s.chain[j] := List.getElem?_eq_getElem (h ▸ hj)
    rw [exchangeWord_fits (s := inWindow j s) h hd, windowWord_fits h hd]
    simp [inWindow, windowDraws, h]
  · rw [exchangeWord_misfit (s := inWindow j s) h, windowWord_misfit h]
    simp [inWindow, windowDraws, h, useDraw, Nat.add_assoc]

/-- An exchange before the last leads one position further. -/
theorem exchange_inWindow {s : State} {j : Nat} (c : Word) (hj : j + 1 < s.n) :
    exchange c (inWindow j s) = .next (inWindow (j + 1) s) :=
  exchange_before_last c (exchangeWord_inWindow (by omega)) hj

/-- The last exchange ends the window with all N words stored. -/
theorem exchange_inWindow_last {s : State} {j : Nat} (c : Word) (hj : j + 1 = s.n) :
    exchange c (inWindow j s) = .next (endWindow c (inWindow s.n s)) := by
  have hx := exchangeWord_inWindow (s := s) (j := j) (by omega)
  rw [exchange_last (s := inWindow j s) c hx hj, ← hj]
  exact congrArg _ (endWindow_counter c (inWindow (j + 1) s) j)

theorem step_inWindow {s : State} (j : Nat) (hq : Quiet s) :
    step (inWindow j s) = exchange s.curCmd (inWindow j s) :=
  (step_quiet (s := inWindow j s) hq).trans (blockStep_shift rfl)

/-- From SETUP, the guard step and `j` exchanges lead to the window's `j`-th state. -/
theorem run_inWindow {s : State} {j : Nat} (hq : Quiet s) (hp : s.phase = .setup) (hj : j < s.n) :
    run (j + 1) s = .next (inWindow j s) := by
  induction j with
  | zero =>
    have hstep : step s = .next (endSetup s) := (step_quiet hq).trans (blockStep_setup hp)
    rw [run_succ 0 hstep, run_zero, inWindow_zero]
  | succ j ih =>
    have hstep := (step_inWindow j hq).trans (exchange_inWindow s.curCmd hj)
    rw [run_add (j + 1) 1 (ih (by omega)), run_succ 0 hstep, run_zero]

/-- From SETUP, N + 1 steps end the window. -/
theorem run_window {s : State} (hq : Quiet s) (hp : s.phase = .setup) (hn : 1 ≤ s.n) :
    run (s.n + 1) s = .next (endWindow s.curCmd (inWindow s.n s)) := by
  obtain ⟨j, hj⟩ : ∃ j, j + 1 = s.n := ⟨s.n - 1, by omega⟩
  have hstep := (step_inWindow j hq).trans (exchange_inWindow_last s.curCmd hj)
  rw [← hj, run_add (j + 1) 1 (run_inWindow hq hp (by omega)), run_succ 0 hstep, run_zero, hj]

/-! ### Whole transactions -/

/-- A full window's words are the pending words, whatever a canonical buffer held before. -/
theorem putFirst_eq_received {s : State} (hf : s.chain.length = s.n) (hb : BufferOk s) :
    Buffer.putFirst (windowWord s) s.n s.rbuf = received 0 s.chain := by
  obtain ⟨hwf, hin⟩ := hb
  refine Buffer.ext_get (Buffer.putFirst_wf hwf _ _) (received_wf 0 _) fun i => ?_
  rw [Buffer.get_putFirst, received_get, if_pos (Nat.zero_le i), Nat.sub_zero]
  by_cases hi : i < s.n
  · have hd : s.chain[i]? = some s.chain[i] := List.getElem?_eq_getElem (hf ▸ hi)
    rw [if_pos hi, windowWord_fits hf hd, hd, Option.map_some]
  · rw [if_neg hi, Buffer.get_of_within hin (by omega), List.getElem?_eq_none (by omega), Option.map_none]

/-- Settles O41: the run ends the window, and there the buffer holds the pending words. -/
theorem stepsMakeTransaction : Obligations.StepsMakeTransaction := by
  rintro s hq hp ⟨hf, hn⟩ hb
  have hdraws : windowDraws s s.n = 0 := if_pos hf
  rw [run_window hq hp hn, endWindow_fits (s := inWindow s.n s) _ hf, inWindow, putFirst_eq_received hf hb, hdraws]
  rfl

/-- Settles O42: each initial part of the run ends in a state of the window. -/
theorem oneWindowSpansAllExchanges : Obligations.OneWindowSpansAllExchanges := by
  rintro s hq hp ⟨hf, hn⟩
  have hend := run_window hq hp hn
  rw [endWindow_fits (s := inWindow s.n s) _ hf] at hend
  refine ⟨fun j hj => ⟨_, run_inWindow hq hp hj, rfl, rfl, rfl, rfl, fun i hi => ?_⟩, _, hend, rfl, rfl, rfl⟩
  have hd : s.chain[i]? = some s.chain[i] := List.getElem?_eq_getElem (by omega)
  calc Buffer.get i (inWindow j s).rbuf = some (windowWord s i) := by
        rw [inWindow, Buffer.get_putFirst, if_pos hi]
    _ = (s.chain[i]?).map Device.pend := by rw [windowWord_fits hf hd, hd, Option.map_some]

/-! ### Whole requests -/

/-- RECOVER ends a request that has no second transaction. -/
theorem endRecover_finishes {s : State} (hs : hasSecond s = false) (ho : s.curOp ≠ none) :
    endRecover s = requestEnd s := by
  obtain ⟨op, hop⟩ := Option.ne_none_iff_exists'.1 ho
  simp [endRecover, hs, hop, requestEnd]

/-- A request of one transaction: its taking, the transaction and the end of RECOVER. -/
theorem run_oneTransaction {s : State} {op : Op} {c : Word} (hq : Quiet s) (hf : ChainFits s) (hb : BufferOk s)
    (hop : op ≠ .read ∧ op ≠ .readAngle) (htake : step s = .next (popRequest (takeBusRequest op c s))) :
    run (s.n + 3) s = .next (oneTransaction op c s) := by
  have hwindow : run (s.n + 1) (popRequest (takeBusRequest op c s)) =
      .next (transactionEnd c (requestStart op s)) :=
    stepsMakeTransaction (popRequest (takeBusRequest op c s)) hq rfl hf hb
  have hend : step (transactionEnd c (requestStart op s)) = .next (oneTransaction op c s) := by
    rw [step_quiet (s := transactionEnd c (requestStart op s)) hq, blockStep_recover rfl, endRecover_finishes]
    · rfl
    · simp [hasSecond, transactionEnd, requestStart, hop]
    · simp [transactionEnd, requestStart]
  rw [run_succ (s.n + 2) htake, run_add (s.n + 1) 1 hwindow, run_succ 0 hend, run_zero]

/-- Settles O43: an accepted selector is legal, so the request is taken with the ROM's word. -/
theorem execRunsOneTransaction : Obligations.ExecRunsOneTransaction := by
  intro s r csel hq ho hf hb hd
  obtain ⟨-, hwf, -⟩ := acceptedRequestIsItsEncoding _ _ _ hd
  obtain ⟨c, -, he⟩ := enc_legal s.params.rom (of_decide_eq_true hwf)
  refine ⟨_, he, run_oneTransaction hq hf hb (by decide) ?_⟩
  have hexec : exec (.exec csel) s = .next (takeBusRequest .exec (romWord s.params.rom c) s) :=
    takeSelected_legal he
  rw [step_accepted hq.blockMoves ho hd, nextTurn_quiet hq, hexec, retire]

/-! ### The exchange of a command word -/

/-- Settles O35: the command word's exchange, before the last. -/
theorem commandExchangeGoesOn : Obligations.CommandExchangeGoesOn := by
  intro s c d hf hk hd
  rw [exec_cmdInstr, exchange_goes_on _ hf hd hk]

/-- Settles O36: the command word's last exchange, and the latch position by position. -/
theorem lastExchangeClosesWindow : Obligations.LastExchangeClosesWindow := by
  intro s c d hf hk hd
  refine ⟨latched (romWord s.params.rom c) 0 s.draws s.chain, ?_, by simp [hf], fun i hi => ?_⟩
  · rw [exec_cmdInstr, exchange_closes _ hf hd hk, hf]
  · rw [latched_get, if_pos (by omega), Nat.zero_add]

/-- Settles O37: the exchange receives a free value and the latch draws; the run is the window's. -/
theorem wrongChainLengthStoresFreeWord : Obligations.WrongChainLengthStoresFreeWord := by
  refine ⟨fun s c hf hk => ?goesOn, fun s c hf hk => ?closes, fun s hq hp hf hn => ?run⟩
  case goesOn =>
    rw [exec_cmdInstr, exchange_before_last _ (exchangeWord_misfit hf) hk]
    rfl
  case closes =>
    refine ⟨drawnChain (s.draws + 1) s.chain, ?_, by simp, fun i hi => by rw [drawnChain_get, if_pos hi]⟩
    rw [exec_cmdInstr, exchange_last _ (exchangeWord_misfit hf) hk,
      endWindow_misfit (s := writeWord s.k _ (useDraw s)) _ hf]
    rfl
  case run =>
    have hend := run_window hq hp hn
    rw [endWindow_misfit (s := inWindow s.n s) _ hf] at hend
    refine ⟨_, hend, rfl, rfl, rfl, rfl, rfl, fun i hi => ?_⟩
    rw [inWindow, Buffer.get_putFirst, if_pos hi, windowWord_misfit hf]

/-- Settles O38: an exchange that answers goes on or closes the window, and neither writes elsewhere. -/
theorem frameCommands : Obligations.FrameCommands := by
  intro s t c h
  rw [exec_cmdInstr] at h
  rcases exchange_cases (romWord s.params.rom c) s with ⟨-, e⟩ | ⟨rx, d, -, e⟩ | ⟨rx, d, ch, hk, hl, -, e⟩ <;>
    cases e.symm.trans h
  · exact ⟨fun a ha => Buffer.get_put_other _ _ ha, rfl, rfl, rfl, rfl, rfl, rfl, rfl, rfl, rfl, rfl, rfl, rfl,
      fun _ => ⟨rfl, rfl, rfl, rfl, rfl⟩⟩
  · exact ⟨fun a ha => Buffer.get_put_other _ _ ha, rfl, rfl, rfl, rfl, rfl, rfl, rfl, rfl, rfl, rfl, rfl, hl,
      fun hlt => absurd hk hlt.ne⟩

/-- Settles O39: the exchange asks for K below N first. -/
theorem noExchangePastTheLast : Obligations.NoExchangePastTheLast := by
  intro s c h
  rw [exec_cmdInstr, exchange_past_last _ h]

/-! ### The step that takes or refuses a bus request -/

theorem takeSelected_cases (op : Op) (csel : BitVec 3) (s : State) :
    (csel.toNat < 5 ∧ ∃ c, takeSelected op csel s = .next (takeBusRequest op c s)) ∨
    (5 ≤ csel.toNat ∧ takeSelected op csel s = .next (refuse .rsvdCsel s)) := by
  by_cases h : csel.toNat < 5
  · obtain ⟨c, -, he⟩ := enc_legal s.params.rom h
    exact .inl ⟨h, _, takeSelected_legal he⟩
  · have h5 : 5 ≤ csel.toNat := Nat.not_lt.1 h
    exact .inr ⟨h5, takeSelected_reserved (enc_reserved _ h5)⟩

/-- The bus requests that carry the selector `csel`. -/
def Selects (csel : BitVec 3) (i : Instr) : Prop := i = .exec csel ∨ i = .read csel ∨ i = .readSeq csel

theorem Selects.exec_eq {csel : BitVec 3} {i : Instr} (h : Selects csel i) (s : State) :
    ∃ op, exec i s = takeSelected op csel s := by
  rcases h with rfl | rfl | rfl
  · exact ⟨.exec, rfl⟩
  · exact ⟨.read, rfl⟩
  · exact ⟨.readSeq, rfl⟩

theorem Selects.unique {a b : BitVec 3} {i : Instr} (ha : Selects a i) (hb : Selects b i) : a = b := by
  rcases ha with rfl | rfl | rfl <;> simpa [Selects, eq_comm] using hb

/-- A bus request's own step refuses a reserved selector, and takes the request otherwise. -/
theorem busRequest_cases {i : Instr} {s t : State}
    (hi : (∃ csel, Selects csel i) ∨ i = .readAngle ∨ i = .readAngleSeq) (h : exec i s = .next t) :
    ((∃ csel, 5 ≤ csel.toNat ∧ Selects csel i) ∧ t = refuse .rsvdCsel s) ∨
    ((∀ csel, 5 ≤ csel.toNat → ¬ Selects csel i) ∧ ∃ op c, t = takeBusRequest op c s) := by
  rcases hi with ⟨csel, hs⟩ | rfl | rfl
  · obtain ⟨op, ho⟩ := hs.exec_eq s
    rcases takeSelected_cases op csel s with ⟨h5, c, e⟩ | ⟨h5, e⟩ <;> cases (ho.trans e).symm.trans h
    · refine .inr ⟨fun b hb hsb => ?_, op, c, rfl⟩
      rw [hs.unique hsb] at h5
      omega
    · exact .inl ⟨⟨csel, h5, hs⟩, rfl⟩
  · cases h
    exact .inr ⟨by simp [Selects], .readAngle, _, rfl⟩
  · cases h
    exact .inr ⟨by simp [Selects], .readAngleSeq, _, rfl⟩

/-- Settles O17: a refusal writes the refusal status only, and a taken request the sequencer's fields only. -/
theorem frameBusRequests : Obligations.FrameBusRequests := by
  intro i s t hi h
  rcases busRequest_cases hi h with ⟨⟨csel, h5, hs⟩, rfl⟩ | ⟨hno, op, c, rfl⟩
  · refine ⟨fun _ => rfl, rfl, rfl, rfl, rfl, rfl, rfl, rfl, rfl, rfl, rfl, rfl, rfl,
      fun _ => ⟨rfl, rfl, rfl, rfl, rfl, rfl, rfl⟩, fun hno => ?_⟩
    obtain ⟨h1, h2, h3⟩ := hno csel h5
    rcases hs with hs | hs | hs <;> contradiction
  · exact ⟨fun _ => rfl, rfl, rfl, rfl, rfl, rfl, rfl, rfl, rfl, rfl, rfl, rfl, rfl,
      fun ⟨csel, h5, hs⟩ => absurd hs (hno csel h5), fun _ => ⟨rfl, rfl⟩⟩

/-! ### SETFREQ and RDBUF -/

theorem execSetfreq_outOfRange {s : State} {hz : BitVec 32} (h : hz.toNat = 0 ∨ Config.freqMax < hz.toNat) :
    execSetfreq hz s = .next (refuse .freqRange s) := if_pos h

theorem execRdbuf_inRange {s : State} {idx : BitVec 8} (h : idx.toNat < s.n) :
    execRdbuf idx s = .next (completeVal (readWord idx.toNat s).1 (readWord idx.toNat s).2) :=
  if_neg (Nat.not_le.2 h)

theorem execRdbuf_outOfRange {s : State} {idx : BitVec 8} (h : s.n ≤ idx.toNat) :
    execRdbuf idx s = .next (refuse .idxRange s) := if_pos h

/-- Settles O21: the two sides of the range check. -/
theorem setfreqWritesOrRefuses : Obligations.SetfreqWritesOrRefuses :=
  fun _ _ => ⟨fun h1 h2 => execSetfreq_inRange h1 h2, fun h => execSetfreq_outOfRange h⟩

/-- Settles O22: a refusal writes the refusal status only, a legal frequency `FREQ` and `RESP.view`. -/
theorem frameSetfreq : Obligations.FrameSetfreq := by
  intro hz s t h
  by_cases hr : hz.toNat = 0 ∨ 10000000 < hz.toNat
  · cases (execSetfreq_outOfRange hr).symm.trans h
    rw [if_pos hr]
    exact ⟨fun _ => rfl, rfl, rfl, rfl, rfl, rfl, rfl, rfl, rfl, rfl, rfl, rfl, rfl, rfl, rfl, rfl, rfl, rfl, rfl,
      rfl, rfl, rfl, rfl⟩
  · have hlow : 1 ≤ hz.toNat := by omega
    have hhigh : hz.toNat ≤ Config.freqMax := Nat.not_lt.1 fun hlt => hr (.inr hlt)
    cases (execSetfreq_inRange hlow hhigh).symm.trans h
    rw [if_neg hr]
    exact ⟨fun _ => rfl, rfl, rfl, rfl, rfl, rfl, rfl, rfl, rfl, rfl, rfl, rfl, rfl, rfl, rfl, rfl, rfl, rfl, rfl,
      rfl, rfl⟩

/-- Settles O18: the word is read from its cell. -/
theorem rdbufReturnsWrittenWord : Obligations.RdbufReturnsWrittenWord := by
  intro s idx w hi hw
  refine (execRdbuf_inRange hi).trans ?_
  rw [readWord_written hw]
  rfl

/-- Settles O19: a position without a cell is read as the next free value. -/
theorem rdbufDrawsUnwrittenWord : Obligations.RdbufDrawsUnwrittenWord := by
  intro s idx hi hw
  refine (execRdbuf_inRange hi).trans ?_
  rw [readWord_unwritten hw]
  rfl

/-- Settles O20: the index check comes first. -/
theorem rdbufOutOfRangeRefused : Obligations.RdbufOutOfRangeRefused := fun _ _ h => execRdbuf_outOfRange h

/-! ### SETUP, RECOVER and rest -/

/-- Settles O34: SETUP's only row. -/
theorem setupLeadsToShift : Obligations.SetupLeadsToShift :=
  fun _ hb hp => (step_block hb).trans (blockStep_setup hp)

theorem step_recover {s : State} (hb : BlockMoves s) (hp : s.phase = .recover) :
    step s = .next (endRecover (nextTurn s)) :=
  (step_block hb).trans (blockStep_recover hp)

/-- Settles O40: the three rows of RECOVER exclude each other. -/
theorem recoverContinuesOrEnds : Obligations.RecoverContinuesOrEnds := by
  intro s hb hp
  rw [step_recover hb hp]
  refine ⟨fun ht ho => ?second, fun op ho hlast => ?finish, fun ho => ?rest⟩
  case second =>
    have hs : hasSecond (nextTurn s) = true := by simpa [hasSecond, ht] using ho
    rw [endRecover, if_pos hs]
    rfl
  case finish =>
    have hs : hasSecond (nextTurn s) = false := by rcases hlast with ht | hop <;> simp [hasSecond, *]
    rw [endRecover_finishes hs (by simp [ho])]
    rfl
  case rest =>
    have hs : hasSecond (nextTurn s) = false := by simp [hasSecond, ho]
    simp [endRecover, hs, ho]

/-- Settles O57: the power-up's turn, and the drawn chain position by position. -/
theorem powerUpDrawsPendingWords : Obligations.PowerUpDrawsPendingWords :=
  fun s ht => ⟨drawnChain s.draws s.chain, step_powerUp ht, drawnChain_length _ _,
    fun i hi => by rw [drawnChain_get, if_pos hi]⟩

/-- A state that its step keeps is kept by every run. -/
theorem run_of_step_self {s : State} (h : step s = .next s) (k : Nat) : run k s = .next s := by
  induction k with
  | zero => rfl
  | succ k ih => rw [run_succ k h, ih]

/-- Settles O58: RECOVER's row without a request, the idle block's row, and the turns a final state may have. -/
theorem blockWithoutRequestRests : Obligations.BlockWithoutRequestRests := by
  have hrecover := fun s hb hp => (recoverContinuesOrEnds s hb hp).2.2
  have hidle := fun s => (idleBlockWaits s).1
  refine ⟨hrecover, hidle, ?final, ?run⟩
  case final =>
    rintro s t ⟨⟨hh, hi⟩, hp⟩ hno hstep
    have hi' : ∀ r, Turn.issue r ∉ s.turns.tail := fun r hm => hi r (List.mem_of_mem_tail hm)
    rcases step_turn s with ⟨n, ht, -⟩ | ⟨-, e⟩ | ⟨r, ht, -⟩ | ⟨hb, -⟩
    · exact absurd ht (hno n)
    · cases e.symm.trans hstep
      exact ⟨⟨⟨hh, hi'⟩, hp⟩, rfl, rfl, rfl⟩
    · exact absurd (List.mem_of_mem_head? ht) (hi r)
    · cases (hidle s hb hp hh).symm.trans hstep
      exact ⟨⟨⟨hh, hi'⟩, hp⟩, rfl, rfl, rfl⟩
  case run =>
    intro s k hq hp ho hh
    have hturns : s.turns.tail = s.turns := by rw [hq]; rfl
    have hfirst := hrecover s hq.blockMoves hp ho
    rw [hturns] at hfirst
    have hself := hidle { s with phase := .idle, respDone := false } (.inl hq) rfl hh
    simp only [hturns] at hself
    rw [run_succ k hfirst, run_of_step_self hself]

end Sys2Proof.Machine

/-! # The read modes

First the two building blocks of every bus request, its taking and one whole transaction; then the requests of one and
of two transactions, run to their end; then what the runs leave in the buffer and in the chain. -/

namespace Sys2Proof.Machine

/-! ### Taking a bus request -/

/-- Settles O16: both forms select the command with number 4, whose word `ENC` answers. -/
theorem angleRequestsTaken : Obligations.AngleRequestsTaken :=
  fun s => ⟨takeSelected_legal (enc_angle s.params.rom), takeSelected_legal (enc_angle s.params.rom)⟩

/-- The decoder accepts a request with a selector only where the ROM has a word for it. -/
theorem enc_of_accept {w : ReqWord} {len : Nat} {csel : BitVec 3} {i : Instr} (rom : Rom) (hs : Selects csel i)
    (hd : decodeRequest w len = .accept i) : ∃ c, enc rom csel = some c := by
  obtain ⟨-, hwf, -⟩ := acceptedRequestIsItsEncoding _ _ _ hd
  have hlegal : cselOk csel = true := by rcases hs with rfl | rfl | rfl <;> exact hwf
  obtain ⟨c, -, he⟩ := enc_legal rom (of_decide_eq_true hlegal)
  exact ⟨_, he⟩

/-- The encoding of a well-formed instruction, where it is a request word, is accepted as that instruction. -/
theorem decodeRequest_encode {i : Instr} {w : ReqWord} (hwf : i.wellFormed = true) (he : encode i = .request w) :
    decodeRequest w 0 = .accept i := by
  have h : decode (.request w) 0 = .instr i := he ▸ decode_encode hwf
  cases hd : decodeRequest w 0 with
  | accept j => simpa [decode, hd] using h
  | reject code => simp [decode, hd] at h

/-- A quiet block takes the bus request it offers. -/
theorem step_takes {s : State} {r : Request} {i : Instr} {op : Op} {c : Word} (hq : Quiet s) (ho : Offers r s)
    (hd : decodeRequest r.word r.vec.length = .accept i) (he : exec i s = .next (takeBusRequest op c s)) :
    step s = .next (popRequest (takeBusRequest op c s)) := by
  rw [step_accepted hq.blockMoves ho hd, nextTurn_quiet hq, he, retire]

/-! ### One transaction -/

theorem transactionEnd_chainFits {s : State} (c : Word) (hf : ChainFits s) : ChainFits (transactionEnd c s) :=
  ⟨(latched_length c 0 s.draws s.chain).trans hf.1, hf.2⟩

theorem transactionEnd_bufferOk {s : State} (c : Word) (hf : ChainFits s) : BufferOk (transactionEnd c s) :=
  ⟨received_wf 0 s.chain, received_lt (by rw [Nat.zero_add]; exact hf.1.le)⟩

/-- A transaction stores the words that were pending (R142). -/
theorem transactionEnd_rbuf_get (c : Word) (s : State) (k : Nat) :
    Buffer.get k (transactionEnd c s).rbuf = (s.chain[k]?).map Device.pend := by
  rw [transactionEnd, received_get, if_pos (Nat.zero_le k), Nat.sub_zero]

/-- A transaction leaves every position with its response to the command (R143). -/
theorem transactionEnd_chain_get {s : State} {k : Nat} (c : Word) (hk : k < s.chain.length) :
    (transactionEnd c s).chain[k]? = some ⟨Config.sensorResp k c (s.draws + k), some c⟩ := by
  rw [transactionEnd, latched_get, if_pos hk, Nat.zero_add]

/-- From the fall of chip-select on, N + 1 steps are `TRANSACTION(c)`. -/
theorem run_beginTransaction {s : State} (c : Word) (hq : Quiet s) (hf : ChainFits s) (hb : BufferOk s) :
    run (s.n + 1) (beginTransaction c s) = .next (transactionEnd c s) :=
  stepsMakeTransaction (beginTransaction c s) hq rfl hf hb

/-- RECOVER after the first transaction of an immediate read begins the second, with NOP (R161). -/
theorem endRecover_second {s : State} (hs : hasSecond s = true) :
    endRecover s = beginTransaction s.params.rom.nop { s with txn := .two } := if_pos hs

/-- RECOVER after the second transaction ends the request. -/
theorem endRecover_afterSecond {s : State} (ht : s.txn = .two) (ho : s.curOp ≠ none) :
    endRecover s = requestEnd s := endRecover_finishes (by simp [hasSecond, ht]) ho

/-! ### Whole read requests -/

/-- The state from which the second transaction of an immediate read begins. -/
def secondStart (op : Op) (c : Word) (s : State) : State := { transactionEnd c (requestStart op s) with txn := .two }

theorem twoTransactions_eq_secondStart (op : Op) (c : Word) (s : State) :
    twoTransactions op c s = requestEnd (transactionEnd s.params.rom.nop (secondStart op c s)) := rfl

/-- The first half of an immediate read: its taking, the first transaction, and the RECOVER that goes on. -/
theorem run_secondStart {s : State} {op : Op} {c : Word} (hq : Quiet s) (hf : ChainFits s) (hb : BufferOk s)
    (hop : op = .read ∨ op = .readAngle) (htake : step s = .next (popRequest (takeBusRequest op c s))) :
    run (s.n + 3) s = .next (beginTransaction s.params.rom.nop (secondStart op c s)) := by
  have hwindow : run (s.n + 1) (popRequest (takeBusRequest op c s)) =
      .next (transactionEnd c (requestStart op s)) := run_beginTransaction (s := requestStart op s) c hq hf hb
  have hs : hasSecond (transactionEnd c (requestStart op s)) = true := by rcases hop with rfl | rfl <;> rfl
  have hnext : step (transactionEnd c (requestStart op s)) =
      .next (beginTransaction s.params.rom.nop (secondStart op c s)) := by
    rw [step_quiet (s := transactionEnd c (requestStart op s)) hq, blockStep_recover rfl, endRecover_second hs]
    rfl
  rw [run_succ (s.n + 2) htake, run_add (s.n + 1) 1 hwindow, run_succ 0 hnext, run_zero]

/-- The second half of an immediate read: the transaction with NOP, and the RECOVER that ends the request. -/
theorem run_second {s : State} (op : Op) (c : Word) (hq : Quiet s) (hf : ChainFits s) :
    run (s.n + 2) (beginTransaction s.params.rom.nop (secondStart op c s)) = .next (twoTransactions op c s) := by
  have hwindow : run (s.n + 1) (beginTransaction s.params.rom.nop (secondStart op c s)) =
      .next (transactionEnd s.params.rom.nop (secondStart op c s)) :=
    run_beginTransaction (s := secondStart op c s) _ hq (transactionEnd_chainFits (s := requestStart op s) c hf)
      (transactionEnd_bufferOk (s := requestStart op s) c hf)
  have hend : step (transactionEnd s.params.rom.nop (secondStart op c s)) = .next (twoTransactions op c s) := by
    rw [step_quiet (s := transactionEnd _ (secondStart op c s)) hq, blockStep_recover rfl,
      endRecover_afterSecond rfl (Option.some_ne_none op), twoTransactions_eq_secondStart]
  rw [run_add (s.n + 1) 1 hwindow, run_succ 0 hend, run_zero]

/-- A request of two transactions is its two halves. -/
theorem run_twoTransactions {s : State} {op : Op} {c : Word} (hq : Quiet s) (hf : ChainFits s) (hb : BufferOk s)
    (hop : op = .read ∨ op = .readAngle) (htake : step s = .next (popRequest (takeBusRequest op c s))) :
    run (2 * s.n + 5) s = .next (twoTransactions op c s) := by
  have hsteps : 2 * s.n + 5 = (s.n + 3) + (s.n + 2) := by omega
  rw [hsteps, run_add _ _ (run_secondStart hq hf hb hop htake), run_second op c hq hf]

/-- Settles O44: the request is taken with its word, and neither operation has a second transaction. -/
theorem pipelinedReadsRunOneTransaction : Obligations.PipelinedReadsRunOneTransaction := by
  refine fun s r hq ho hf hb => ⟨fun csel hd => ?selected, fun hd => ?angle⟩
  case selected =>
    obtain ⟨c, he⟩ := enc_of_accept s.params.rom (.inr (.inr rfl)) hd
    exact ⟨c, he, run_oneTransaction hq hf hb (by decide) (step_takes hq ho hd (takeSelected_legal he))⟩
  case angle =>
    exact run_oneTransaction hq hf hb (by decide) (step_takes hq ho hd (angleRequestsTaken s).2)

/-- Settles O45: the request is taken with its word, and both operations have a second transaction. -/
theorem immediateReadsRunTwoTransactions : Obligations.ImmediateReadsRunTwoTransactions := by
  refine fun s r hq ho hf hb => ⟨fun csel hd => ?selected, fun hd => ?angle⟩
  case selected =>
    obtain ⟨c, he⟩ := enc_of_accept s.params.rom (.inr (.inl rfl)) hd
    exact ⟨c, he, run_twoTransactions hq hf hb (.inl rfl) (step_takes hq ho hd (takeSelected_legal he))⟩
  case angle =>
    exact run_twoTransactions hq hf hb (.inr rfl) (step_takes hq ho hd (angleRequestsTaken s).1)

/-! ### What the reads return -/

/-- An immediate read stores what the chain latched in its first transaction (R164), and leaves responses to NOP
(R167). -/
theorem twoTransactions_get {s : State} {k : Nat} (op : Op) (c : Word) (hk : k < s.chain.length) :
    Buffer.get k (twoTransactions op c s).rbuf = some (Config.sensorResp k c (s.draws + k)) ∧
    ((twoTransactions op c s).chain[k]?).map Device.pendCmd = some (some s.params.rom.nop) := by
  have hfirst : (secondStart op c s).chain[k]? = some ⟨Config.sensorResp k c (s.draws + k), some c⟩ :=
    transactionEnd_chain_get (s := requestStart op s) c hk
  have hk' : k < (secondStart op c s).chain.length := (List.getElem?_eq_some_iff.1 hfirst).1
  constructor
  · calc Buffer.get k (twoTransactions op c s).rbuf
        = ((secondStart op c s).chain[k]?).map Device.pend :=
          transactionEnd_rbuf_get s.params.rom.nop (secondStart op c s) k
      _ = some (Config.sensorResp k c (s.draws + k)) := by rw [hfirst, Option.map_some]
  · exact congrArg (Option.map Device.pendCmd)
      (transactionEnd_chain_get (s := secondStart op c s) s.params.rom.nop hk')

/-- Settles O46: position by position, what one and two transactions store and latch. -/
theorem latencyOfTheReadModes : Obligations.LatencyOfTheReadModes := by
  refine fun s r i c hq ho hf hb hd => ⟨fun hi => ?immediate, fun hi => ?pipelined⟩
  case immediate =>
    obtain ⟨op, hop, he⟩ : ∃ op, (op = .read ∨ op = .readAngle) ∧ exec i s = .next (takeBusRequest op c s) := by
      rcases hi with ⟨csel, rfl, he⟩ | ⟨rfl, rfl⟩
      · exact ⟨.read, .inl rfl, takeSelected_legal he⟩
      · exact ⟨.readAngle, .inr rfl, (angleRequestsTaken s).1⟩
    exact ⟨twoTransactions op c s, run_twoTransactions hq hf hb hop (step_takes hq ho hd he), rfl, rfl, rfl,
      fun k hk => twoTransactions_get op c (hf.1 ▸ hk)⟩
  case pipelined =>
    obtain ⟨op, hop, he⟩ : ∃ op, (op ≠ .read ∧ op ≠ .readAngle) ∧ exec i s = .next (takeBusRequest op c s) := by
      rcases hi with ⟨csel, rfl, he⟩ | ⟨rfl, rfl⟩
      · exact ⟨.readSeq, by decide, takeSelected_legal he⟩
      · exact ⟨.readAngleSeq, by decide, (angleRequestsTaken s).2⟩
    refine ⟨oneTransaction op c s, run_oneTransaction hq hf hb hop (step_takes hq ho hd he), rfl, rfl, rfl,
      fun k d hk => ⟨?_, ?_⟩⟩
    · exact (transactionEnd_rbuf_get c (requestStart op s) k).trans (congrArg (Option.map Device.pend) hk)
    · exact transactionEnd_chain_get (s := requestStart op s) c (List.getElem?_eq_some_iff.1 hk).1

/-! ### READ and the two EXEC requests -/

/-- The host's request for an operation with a selector (R95). -/
def selectedRequest (op : Op) (csel : BitVec 3) : Request := ⟨packRequest op csel 0 0 0, []⟩

/-- The state with the host's requests `rs` waiting. -/
def State.withRequests (s : State) (rs : List Request) : State := { s with host := rs }

theorem run_read {s : State} {csel : BitVec 3} {c : Word} (hc : csel.toNat < 5) (he : enc s.params.rom csel = some c)
    (hq : Quiet s) (ho : Offers (selectedRequest .read csel) s) (hf : ChainFits s) (hb : BufferOk s) :
    run (2 * s.n + 5) s = .next (twoTransactions .read c s) := by
  have hd : decodeRequest (packRequest .read csel 0 0 0) 0 = .accept (.read csel) :=
    decodeRequest_encode (decide_eq_true hc) rfl
  exact run_twoTransactions hq hf hb (.inl rfl) (step_takes hq ho hd (takeSelected_legal he))

theorem run_exec {s : State} {csel : BitVec 3} {c : Word} (hc : csel.toNat < 5) (he : enc s.params.rom csel = some c)
    (hq : Quiet s) (ho : Offers (selectedRequest .exec csel) s) (hf : ChainFits s) (hb : BufferOk s) :
    run (s.n + 3) s = .next (oneTransaction .exec c s) := by
  have hd : decodeRequest (packRequest .exec csel 0 0 0) 0 = .accept (.exec csel) :=
    decodeRequest_encode (decide_eq_true hc) rfl
  exact run_oneTransaction hq hf hb (by decide) (step_takes hq ho hd (takeSelected_legal he))

/-- EXEC and then EXEC of NOP: the first request's end offers the second. -/
theorem run_exec_exec_nop {s : State} {csel : BitVec 3} {c : Word} {rest : List Request} (hc : csel.toNat < 5)
    (he : enc s.params.rom csel = some c) (hq : Quiet s) (hp : s.phase = .idle) (hv : s.refuseCode ≠ .cfgN)
    (hh : s.host = selectedRequest .exec csel :: selectedRequest .exec 0 :: rest) (hf : ChainFits s)
    (hb : BufferOk s) :
    run (2 * s.n + 6) s = .next (oneTransaction .exec s.params.rom.nop (oneTransaction .exec c s)) := by
  have hfirst : run (s.n + 3) s = .next (oneTransaction .exec c s) :=
    run_exec hc he hq ⟨hp, hv, congrArg List.head? hh⟩ hf hb
  have hport : (oneTransaction .exec c s).host = selectedRequest .exec 0 :: rest := congrArg List.tail hh
  have hsecond : run (s.n + 3) (oneTransaction .exec c s) =
      .next (oneTransaction .exec s.params.rom.nop (oneTransaction .exec c s)) :=
    run_exec (s := oneTransaction .exec c s) (by decide) (enc_nop s.params.rom) hq
      ⟨rfl, hv, congrArg List.head? hport⟩ (transactionEnd_chainFits (s := requestStart .exec s) c hf)
      (transactionEnd_bufferOk (s := requestStart .exec s) c hf)
  have hsteps : 2 * s.n + 6 = (s.n + 3) + (s.n + 3) := by omega
  rw [hsteps, run_add _ _ hfirst, hsecond]

/-- READ ends where EXEC and then EXEC of NOP end, but for CUR_OP and TXN (R163, log entry 17). -/
theorem twoTransactions_eq_exec_exec_nop (s : State) (c : Word) (r p q : Request) (rest : List Request) :
    twoTransactions .read c (s.withRequests (r :: rest)) =
      { oneTransaction .exec s.params.rom.nop (oneTransaction .exec c (s.withRequests (p :: q :: rest))) with
        curOp := some .read, txn := .two } := rfl

/-- Settles O47: both sides run to their ends, and the end states are one state but for two fields. -/
theorem readEqualsExecThenExecNop : Obligations.ReadEqualsExecThenExecNop := by
  intro s csel rest hc hq hp hv hf hb
  obtain ⟨c, -, he⟩ := enc_legal s.params.rom hc
  have hread := run_read (s := s.withRequests (selectedRequest .read csel :: rest)) hc he hq ⟨hp, hv, rfl⟩ hf hb
  have hexec := run_exec_exec_nop
    (s := s.withRequests (selectedRequest .exec csel :: selectedRequest .exec 0 :: rest)) hc he hq hp hv rfl hf hb
  exact ⟨_, _, hread, hexec, rfl, rfl, rfl, rfl, rfl, rfl, rfl, rfl,
    twoTransactions_eq_exec_exec_nop s _ _ _ _ rest⟩

end Sys2Proof.Machine

/-! # The result utilities

The operations on one word and on the host's vector first: payload, scaling, parity. Then what reading N words of the
buffer gives, the equation of each request, and the frame of the family. -/

namespace Sys2Proof.Machine

/-! ### The payload mask (spec/43_result_utilities.md R184, R187) -/

theorem payload_toNat (w : Word) : (payload w).toNat = w.toNat % 2 ^ 14 :=
  (BitVec.toNat_and ..).trans (Nat.and_two_pow_sub_one_eq_mod _ 14)

@[simp] theorem payload_payload (w : Word) : payload (payload w) = payload w := by
  simp [payload, BitVec.and_assoc]

theorem payload_le (w : Word) : (payload w).toNat ≤ 16383 := by
  rw [payload_toNat]
  omega

@[simp] theorem maskFirst_length (n : Nat) (ws : List Word) : (maskFirst n ws).length = ws.length := by
  induction n, ws using maskFirst.induct with
  | case1 ws => rfl
  | case2 n => rfl
  | case3 n w ws ih => simp [maskFirst, ih]

theorem maskFirst_get (n i : Nat) (ws : List Word) :
    (maskFirst n ws)[i]? = (ws[i]?).map (fun w => if i < n then payload w else w) := by
  induction n, ws using maskFirst.induct generalizing i with
  | case1 ws => simp [maskFirst]
  | case2 n => simp [maskFirst]
  | case3 n w ws ih => cases i <;> simp [maskFirst, ih]

/-- Settles O23: bits 13:0, a mask applied twice, and the bound of a 14-bit number. -/
theorem maskReturnsPayload : Obligations.MaskReturnsPayload :=
  fun _ w => ⟨rfl, rfl, payload_payload w, payload_le w⟩

theorem execMaskb_fits {s : State} {n : BitVec 8} (h : n.toNat ≤ (portVec s).length) :
    execMaskb n s = .next (completeVec (maskFirst n.toNat (portVec s)) s) := if_neg (Nat.not_lt.2 h)

theorem execMaskb_tooLong {s : State} {n : BitVec 8} (h : (portVec s).length < n.toNat) :
    execMaskb n s = .next (refuse .lenRange s) := if_pos h

/-- Settles O24: MASKB's vector, word by word. -/
theorem maskbMasksFirstWords : Obligations.MaskbMasksFirstWords :=
  fun s n h => ⟨maskFirst n.toNat (portVec s), execMaskb_fits h, maskFirst_length _ _,
    fun i w hw => by rw [maskFirst_get, hw, Option.map_some]⟩

/-- Settles O25: the length check comes first. -/
theorem maskbTooLongRefused : Obligations.MaskbTooLongRefused := fun _ _ h => execMaskb_tooLong h

/-! ### Angle conversion (spec/43_result_utilities.md R201, R205) -/

section
variable {full : Nat} (hfull : full ≤ 65536)
include hfull

/-- Up to 65536 units per turn the scaled payload fits 16 bits, so it is exact (R182). -/
theorem scalePayload_toNat (w : Word) : (scalePayload full w).toNat = (payload w).toNat * full / 16384 := by
  have hprod : (payload w).toNat * full ≤ 16383 * 65536 := Nat.mul_le_mul (payload_le w) hfull
  rw [scalePayload, BitVec.toNat_ofNat, Nat.mod_eq_of_lt (by simp only [Config.div]; omega)]

theorem scalePayload_mono {v w : Word} (h : (payload v).toNat ≤ (payload w).toNat) :
    (scalePayload full v).toNat ≤ (scalePayload full w).toNat := by
  rw [scalePayload_toNat hfull, scalePayload_toNat hfull]
  exact Nat.div_le_div_right (Nat.mul_le_mul_right full h)

/-- The largest value is that of the largest payload. -/
theorem scalePayload_le (w : Word) : (scalePayload full w).toNat ≤ 16383 * full / 16384 := by
  rw [scalePayload_toNat hfull]
  exact Nat.div_le_div_right (Nat.mul_le_mul_right full (payload_le w))

end

/-- Settles O31: the scaling to 36000 units per turn. -/
theorem degScalesPayload : Obligations.DegScalesPayload := by
  have hfull : Config.degFull ≤ 65536 := by decide
  refine ⟨fun s w => ⟨degrees w, rfl, rfl, scalePayload_toNat hfull w, ?shift, scalePayload_le hfull w⟩,
    fun _ _ => scalePayload_mono hfull, by decide, by decide, by decide⟩
  case shift =>
    rw [Nat.shiftRight_eq_div_pow]
    exact scalePayload_toNat hfull w

/-- Settles O32: the scaling to 62832 units per turn. -/
theorem radScalesPayload : Obligations.RadScalesPayload := by
  have hfull : Config.radFull ≤ 65536 := by decide
  exact ⟨fun s w => ⟨radians w, rfl, rfl, scalePayload_toNat hfull w, scalePayload_le hfull w⟩,
    fun _ _ => scalePayload_mono hfull, by decide, by decide, by decide⟩

/-! ### The parity check (spec/43_result_utilities.md R191) -/

theorem getLsbD_fold (x : Word) (i : Nat) : (fold x).getLsbD i = (x.getLsbD i ^^ x.getLsbD (i + 1)) := by
  simp [fold, Nat.add_comm 1]

theorem folds_add (m n : Nat) (x : Word) : folds (m + n) x = folds n (folds m x) := by
  induction m generalizing x with
  | zero => rw [Nat.zero_add, folds]
  | succ m ih => rw [Nat.succ_add, folds, folds, ih]

/-- 2^k folds are one fold by 2^k bits: the middle terms cancel as the count doubles. -/
theorem getLsbD_folds_two_pow (k : Nat) (x : Word) (i : Nat) :
    (folds (2 ^ k) x).getLsbD i = (x.getLsbD i ^^ x.getLsbD (i + 2 ^ k)) := by
  induction k generalizing x i with
  | zero => exact getLsbD_fold x i
  | succ k ih =>
    rw [Nat.pow_succ, Nat.mul_two, folds_add, ih, ih, ih]
    simp [Nat.add_assoc]

/-- 15 = 8 + 4 + 2 + 1 folds gather every bit once. -/
theorem getLsbD_folds_fifteen (w : Word) :
    (folds 15 w).getLsbD 0 = ((List.range 16).map (fun j => w.getLsbD j)).foldl Bool.xor false := by
  have hsplit : folds 15 w = folds (2 ^ 3) (folds (2 ^ 2) (folds (2 ^ 1) (folds (2 ^ 0) w))) := rfl
  simp only [hsplit, getLsbD_folds_two_pow]
  simp [List.range_succ]

/-- The exclusive or of a row of bits is whether the number of ones is odd. -/
theorem foldl_xor_map_eq_odd_countP {α : Type} (p : α → Bool) (l : List α) (b : Bool) :
    (l.map p).foldl Bool.xor b = (b ^^ decide (l.countP p % 2 = 1)) := by
  induction l generalizing b with
  | nil => simp
  | cons a l ih =>
    rw [List.map_cons, List.foldl_cons, ih, List.countP_cons]
    cases p a
    · simp
    · rcases Nat.mod_two_eq_zero_or_one (l.countP p) with h | h <;> simp [Nat.add_mod, h]

theorem parityOk_eq (w : Word) : parityOk w = decide (popcount w % 2 = 0) := by
  rw [parityOk, getLsbD_folds_fifteen, foldl_xor_map_eq_odd_countP, ← popcount]
  rcases Nat.mod_two_eq_zero_or_one (popcount w) with h | h <;> simp [h]

/-- Settles O26: the folds give the exclusive or, which is the parity of the number of ones. -/
theorem parityCountsSixteenBits : Obligations.ParityCountsSixteenBits := fun s w =>
  ⟨congrArg (fun b => Host.Outcome.next (completeFlag b s)) (parityOk_eq w), getLsbD_folds_fifteen w⟩

/-! ### Reading words of the buffer (spec/43_result_utilities.md R197) -/

theorem readWords_draws (i count : Nat) (s : State) :
    (readWords i count s).2.draws =
      s.draws + (List.range' i count).countP (fun j => (Buffer.get j s.rbuf).isNone) := by
  induction count generalizing i s with
  | zero => rfl
  | succ count ih =>
    simp only [readWords, ih, List.range'_succ, List.countP_cons]
    cases hw : Buffer.get i s.rbuf with
    | none => simp [readWord_unwritten hw]; omega
    | some w => simp [readWord_written hw]

/-- A written word is among the words read. -/
theorem mem_readWords {i j count : Nat} {s : State} {w : Word} (hij : i ≤ j) (hj : j < i + count)
    (hw : Buffer.get j s.rbuf = some w) : w ∈ (readWords i count s).1 := by
  induction count generalizing i s with
  | zero => omega
  | succ count ih =>
    simp only [readWords, List.mem_cons]
    rcases hij.eq_or_lt with rfl | hlt
    · simp [readWord_written hw]
    · refine .inr (ih hlt (by omega) ?_)
      rwa [readWord_state]

/-! ### Error-flag inspection (spec/43_result_utilities.md R196, R198) -/

theorem execErrIdx_inRange {s : State} {idx : BitVec 8} (h : idx.toNat < s.n) :
    execErrIdx idx s = .next (completeFlag (errorFlag (readWord idx.toNat s).1) (readWord idx.toNat s).2) :=
  if_pos h

theorem execErrIdx_outOfRange {s : State} {idx : BitVec 8} (h : s.n ≤ idx.toNat) :
    execErrIdx idx s = .next (completeFlag false s) := if_neg (Nat.not_lt.2 h)

/-- ERR_ANY's flag, and the state it leaves: reading has changed the count of free values only. -/
theorem execErrAny_eq (s : State) : execErrAny s = .next (completeFlag (anyError (readWords 0 s.n s).1)
    { s with draws := (readWords 0 s.n s).2.draws }) := by
  rw [← readWords_state]
  rfl

/-- Settles O27: the word is read from its cell, or drawn where there is none. -/
theorem errIdxReadsErrorFlag : Obligations.ErrIdxReadsErrorFlag := by
  refine fun s idx hi => ⟨fun w hw => ?written, fun hw => ?unwritten⟩ <;>
    refine (execErrIdx_inRange hi).trans ?_
  case written =>
    rw [readWord_written hw]
    rfl
  case unwritten =>
    rw [readWord_unwritten hw]
    rfl

/-- Settles O30: the count of draws, and a written word with its error flag set among the words read. -/
theorem errAnyCompletes : Obligations.ErrAnyCompletes := by
  refine fun s => ⟨anyError (readWords 0 s.n s).1, _, ?next, rfl, fun ⟨i, w, hi, hw, he⟩ => ?flag⟩
  case next =>
    rw [List.range_eq_range', ← readWords_draws]
    exact execErrAny_eq s
  case flag =>
    exact List.any_eq_true.2 ⟨w, mem_readWords (Nat.zero_le i) (by omega) hw, he⟩

/-- Settles O29: where every word is written, no draw is used and the words read are the stored ones. -/
theorem errAnyIsSomeErrorFlag : Obligations.ErrAnyIsSomeErrorFlag := by
  refine ⟨fun s hw => ?_, rfl⟩
  have hread := readWords_written (s := s) (i := 0) (count := s.n) fun j _ hj => hw j (by omega)
  refine ⟨anyError (readWords 0 s.n s).1, (execErrAny_eq s).trans (by rw [hread]; rfl), ?_⟩
  rw [hread, anyError, List.any_map, List.any_eq_true]
  constructor
  · rintro ⟨i, hi, he⟩
    have hi : i < s.n := by simpa using hi
    obtain ⟨w, hg⟩ := Option.isSome_iff_exists.1 (hw i hi)
    exact ⟨i, w, hi, hg, by simpa [hg, errorFlag] using he⟩
  · rintro ⟨i, w, hi, hg, he⟩
    exact ⟨i, by simpa using hi, by simpa [hg, errorFlag] using he⟩

/-! ### What the utilities and RDBUF change (spec/43_result_utilities.md R180, R181) -/

/-- The answers of the result utilities and of RDBUF, one row per form of the instruction. -/
inductive UtilityRow (s : State) : Instr → State → Prop where
  | mask (w : Word) : UtilityRow s (.mask w) (completeVal (payload w) s)
  | deg (w : Word) : UtilityRow s (.deg w) (completeVal (degrees w) s)
  | rad (w : Word) : UtilityRow s (.rad w) (completeVal (radians w) s)
  | parity (w : Word) : UtilityRow s (.parity w) (completeFlag (parityOk w) s)
  | maskb {n : BitVec 8} : n.toNat ≤ (portVec s).length →
      UtilityRow s (.maskb n) (completeVec (maskFirst n.toNat (portVec s)) s)
  | maskbTooLong {n : BitVec 8} : (portVec s).length < n.toNat → UtilityRow s (.maskb n) (refuse .lenRange s)
  | rdbuf {idx : BitVec 8} (v : Word) (d : Nat) : idx.toNat < s.n →
      UtilityRow s (.rdbuf idx) (completeVal v { s with draws := d })
  | rdbufOutOfRange {idx : BitVec 8} : s.n ≤ idx.toNat → UtilityRow s (.rdbuf idx) (refuse .idxRange s)
  | errIdx (idx : BitVec 8) (b : Bool) (d : Nat) : UtilityRow s (.errIdx idx) (completeFlag b { s with draws := d })
  | errAny (b : Bool) (d : Nat) : UtilityRow s .errAny (completeFlag b { s with draws := d })

/-- The eight instructions of the family. -/
def IsUtility (i : Instr) : Prop :=
  (∃ w, i = .mask w ∨ i = .parity w ∨ i = .deg w ∨ i = .rad w) ∨
    (∃ b, i = .maskb b ∨ i = .errIdx b ∨ i = .rdbuf b) ∨ i = .errAny

theorem utilityRow_of_exec {i : Instr} {s t : State} (hi : IsUtility i) (h : exec i s = .next t) :
    UtilityRow s i t := by
  rcases hi with ⟨w, rfl | rfl | rfl | rfl⟩ | ⟨b, rfl | rfl | rfl⟩ | rfl
  · cases h; exact .mask w
  · cases h; exact .parity w
  · cases h; exact .deg w
  · cases h; exact .rad w
  · by_cases hb : b.toNat ≤ (portVec s).length
    · cases (execMaskb_fits hb).symm.trans h; exact .maskb hb
    · cases (execMaskb_tooLong (Nat.not_le.1 hb)).symm.trans h; exact .maskbTooLong (Nat.not_le.1 hb)
  · by_cases hb : b.toNat < s.n
    · cases (execErrIdx_inRange hb).symm.trans h
      rw [readWord_state]; exact .errIdx b _ _
    · cases (execErrIdx_outOfRange (Nat.not_lt.1 hb)).symm.trans h; exact .errIdx b false s.draws
  · by_cases hb : b.toNat < s.n
    · cases (execRdbuf_inRange hb).symm.trans h
      rw [readWord_state]; exact .rdbuf _ _ hb
    · cases (execRdbuf_outOfRange (Nat.not_lt.1 hb)).symm.trans h; exact .rdbufOutOfRange (Nat.not_lt.1 hb)
  · cases (execErrAny_eq s).symm.trans h; exact .errAny _ _

section
variable {i : Instr} {s t : State} (h : UtilityRow s i t)
include h

/-- Every row writes `RESP`, the pulse, the refusal status and the count of free values at most. -/
theorem UtilityRow.frame : ∃ (r : Resp) (b : Bool) (c : RefuseCode) (d : Nat),
    t = { s with resp := r, respDone := true, refused := b, refuseCode := c, draws := d } := by
  cases h <;> exact ⟨_, _, _, _, rfl⟩

theorem UtilityRow.refused_of_tooLong {b : BitVec 8} (hi : i = .maskb b) (hb : (portVec s).length < b.toNat) :
    t.refused = true ∧ t.refuseCode = (if s.refused then s.refuseCode else .lenRange) ∧ t.resp = s.resp := by
  subst hi
  cases h with
  | maskb hle => omega
  | maskbTooLong => exact ⟨rfl, rfl, rfl⟩

theorem UtilityRow.refused_of_outOfRange {b : BitVec 8} (hi : i = .rdbuf b) (hb : s.n ≤ b.toNat) :
    t.refused = true ∧ t.refuseCode = (if s.refused then s.refuseCode else .idxRange) ∧ t.resp = s.resp ∧
      t.draws = s.draws := by
  subst hi
  cases h with
  | rdbuf v d hlt => omega
  | rdbufOutOfRange => exact ⟨rfl, rfl, rfl, rfl⟩

theorem UtilityRow.status
    (hr : ∀ b, (i = .maskb b → b.toNat ≤ (portVec s).length) ∧ (i = .rdbuf b → b.toNat < s.n)) :
    t.refused = s.refused ∧ t.refuseCode = s.refuseCode := by
  cases h with
  | maskbTooLong hb => exact absurd ((hr _).1 rfl) (Nat.not_le.2 hb)
  | rdbufOutOfRange hb => exact absurd ((hr _).2 rfl) (Nat.not_lt.2 hb)
  | _ => exact ⟨rfl, rfl⟩

theorem UtilityRow.resp_of_word (hi : ∃ w, i = .mask w ∨ i = .deg w ∨ i = .rad w ∨ ∃ b, i = .rdbuf b) :
    t.resp.flag = s.resp.flag ∧ t.resp.vec = s.resp.vec := by
  obtain ⟨w, rfl | rfl | rfl | ⟨b, rfl⟩⟩ := hi <;> cases h <;> exact ⟨rfl, rfl⟩

theorem UtilityRow.resp_of_flag (hi : ∃ w, i = .parity w ∨ i = .errAny ∨ ∃ b, i = .errIdx b) :
    t.resp.val = s.resp.val ∧ t.resp.vec = s.resp.vec := by
  obtain ⟨w, rfl | rfl | ⟨b, rfl⟩⟩ := hi <;> cases h <;> exact ⟨rfl, rfl⟩

theorem UtilityRow.resp_of_vector (hi : ∃ b, i = .maskb b) :
    t.resp.val = s.resp.val ∧ t.resp.flag = s.resp.flag := by
  obtain ⟨b, rfl⟩ := hi
  cases h <;> exact ⟨rfl, rfl⟩

theorem UtilityRow.draws_of_pure
    (hi : ∃ w, i = .mask w ∨ i = .parity w ∨ i = .deg w ∨ i = .rad w ∨ ∃ b, i = .maskb b) :
    t.draws = s.draws := by
  obtain ⟨w, rfl | rfl | rfl | rfl | ⟨b, rfl⟩⟩ := hi <;> cases h <;> rfl

end

/-- Settles O33: the frame is that of every row; the two refusals and the fields of `RESP` go by the form. -/
theorem frameUtilities : Obligations.FrameUtilities := by
  intro i s t hi h
  have hrow := utilityRow_of_exec hi h
  obtain ⟨r, b, c, d, rfl⟩ := hrow.frame
  exact ⟨fun _ => rfl, rfl, rfl, rfl, rfl, rfl, rfl, rfl, rfl, rfl, rfl, rfl, rfl, rfl, rfl, rfl,
    fun _ => hrow.refused_of_tooLong, fun _ => hrow.refused_of_outOfRange, hrow.status, hrow.resp_of_word,
    hrow.resp_of_flag, hrow.resp_of_vector, hrow.draws_of_pure⟩

end Sys2Proof.Machine

/-! # Exceptions

What a block answers to a request it refuses, what a reset leaves of an open window or of an illegal N, and that no
state with the invariant is one in which the machine stops. -/

namespace Sys2Proof.Machine

/-! ### Refusals (spec/60_exceptions.md R221 to R224, R227) -/

/-- Settles O10: the decoder's answer, carried out. -/
theorem refusalChangesOnlyStatus : Obligations.RefusalChangesOnlyStatus :=
  fun _ _ _ hb ho hd => step_rejected hb ho hd

/-- After an invalid construction a further refusal leaves the code that is recorded. -/
theorem refuse_cfgN_of_invalid {s : State} (h : s.refuseCode = .cfgN) :
    refuse .cfgN s = { s with refused := true, refuseCode := .cfgN, respDone := true } := by
  simp only [refuse, h, ite_self]

/-- After an invalid construction the port answers every request with the rejection, before any check of the
decoder. -/
theorem step_invalid {s : State} (hb : BlockMoves s) (hp : s.phase = .idle) (hc : s.refuseCode = .cfgN)
    (hh : s.host ≠ []) : step s = .next (popRequest (refuse .cfgN (nextTurn s))) := by
  rw [step_idle hb hp, stepIdle, portRequest_nextTurn, portRequest_invalid hc hh]
  rfl

/-- Settles O12: the rejection comes whatever the request is, and the recorded code stays. -/
theorem invalidConstructionRefusesEveryRequest : Obligations.InvalidConstructionRefusesEveryRequest := by
  intro s r hb hp hc hr
  have hh : s.host ≠ [] := fun hnil => by simp [hnil] at hr
  rw [step_invalid hb hp hc hh, refuse_cfgN_of_invalid (s := nextTurn s) hc]
  rfl

/-- Settles O28: out of range, ERR_IDX reads no word. -/
theorem errIdxOutOfRangeIsFalse : Obligations.ErrIdxOutOfRangeIsFalse := fun _ _ h => execErrIdx_outOfRange h

/-! ### Resets (spec/60_exceptions.md R223, R230) -/

/-- Settles O55: of the two forms of a reset it is the invalid construction. -/
theorem invalidResetGivesRefusedState : Obligations.InvalidResetGivesRefusedState := by
  intro s n ht hn
  refine ⟨_, step_reset ht, ?_⟩
  obtain ⟨ch, d, -, -, -, ⟨h1, h2, -⟩ | ⟨-, e⟩⟩ := resetBlock_cases n (nextTurn s)
  · have hle : n ≤ 255 := h2
    omega
  · rw [e]
    exact ⟨rfl, rfl, rfl, rfl, rfl, rfl⟩

/-- Settles O56: the window is open, so the chain is drawn afresh. -/
theorem resetCutsTransaction : Obligations.ResetCutsTransaction := by
  intro s n ht h1 h2 hp
  have hw : windowOpen (nextTurn s) = true := by rcases hp with hp | hp <;> simp [windowOpen, hp]
  refine ⟨drawnChain s.draws s.chain, ?next, drawnChain_length _ _, fun i hi => by rw [drawnChain_get, if_pos hi]⟩
  obtain ⟨ch, d, -, -, hopen, ⟨-, -, e⟩ | ⟨hn | hn, -⟩⟩ := resetBlock_cases n (nextTurn s)
  · obtain ⟨rfl, rfl⟩ := hopen hw
    rw [step_reset ht, e]
    rfl
  · omega
  · exact absurd h2 (Nat.not_le.2 hn)

/-! ### Progress (spec/60_exceptions.md R220, R231) -/

/-- Whatever an accepted request does, its step answers a next state. -/
theorem exec_accepted_next {i : Instr} {w : ReqWord} {len : Nat} (h : decodeRequest w len = .accept i) (s : State) :
    ∃ t, exec i s = .next t := by
  rcases exec_request_cases h s with ⟨_, _, -, -, e⟩ | ⟨_, -, e⟩ | ⟨_, -, -, -, e⟩ | ⟨_, _, -, e⟩ <;> exact ⟨_, e⟩

/-- An exchange that is due has a row of R127 (spec/41_transaction_executor.md). -/
theorem exchange_next {s : State} (c : Word) (h : s.k < s.n) : ∃ t, exchange c s = .next t := by
  rcases exchange_cases c s with ⟨hk, -⟩ | ⟨_, _, -, e⟩ | ⟨_, _, _, -, -, -, e⟩
  · exact absurd h (Nat.not_lt.2 hk)
  · exact ⟨_, e⟩
  · exact ⟨_, e⟩

/-- Only SHIFT needs the invariant: K is below N there. -/
theorem Inv.blockStep_next {s : State} (h : Inv s) : ∃ t, blockStep s = .next t := by
  rcases blockStep_cases s with ⟨-, -, e⟩ | ⟨i, hp, ho, e⟩ | ⟨_, -, -, e⟩ | ⟨-, e⟩ | ⟨hp, e⟩ | ⟨-, e⟩
  · exact ⟨_, e⟩
  · obtain ⟨r, -, hd⟩ := portRequest_accept hp ho
    obtain ⟨t, ht⟩ := exec_accepted_next hd s
    exact ⟨popRequest t, by rw [e, ht]; rfl⟩
  · exact ⟨_, e⟩
  · exact ⟨_, e⟩
  · obtain ⟨-, hdue⟩ := h.counter
    rw [e]
    exact exchange_next s.curCmd (hdue hp)
  · exact ⟨_, e⟩

/-- Settles O50: the turns of the others always answer, and the block's does where the invariant holds. -/
theorem invariantMeansProgress : Obligations.InvariantMeansProgress := by
  intro s h
  rcases step_turn s with ⟨_, -, e⟩ | ⟨-, e⟩ | ⟨_, -, e⟩ | ⟨-, e⟩
  · exact ⟨_, e⟩
  · exact ⟨_, e⟩
  · exact ⟨_, e⟩
  · rw [e]
    exact (inv_nextTurn h).blockStep_next

end Sys2Proof.Machine

/-! # Durations

The lower bounds of spec/70_reset_and_hazards.md R265: a request's bound is counted in transactions, so one rule per
count gives the bound of every operation. -/

namespace Sys2Proof.Machine

section
variable {op : Op} (s : State) (f : Nat)

theorem requestMinNs_of_oneTransaction (h : transactionsOf op = 1) :
    requestMinNs s op f = transactionMinNs s.params s.n f := by
  rw [requestMinNs, h, Nat.one_mul]

theorem requestMinNs_of_twoTransactions (h : transactionsOf op = 2) :
    requestMinNs s op f = 2 * transactionMinNs s.params s.n f := by
  rw [requestMinNs, h]

theorem requestMinNs_of_noTransaction (h : transactionsOf op = 0) : requestMinNs s op f = 0 := by
  rw [requestMinNs, h, Nat.zero_mul]

end

/-- At the defaults, 1 MHz and N = 1: two guard delays of 1 microsecond and 16 bits of 1 microsecond. -/
theorem transactionMinNs_defaults : transactionMinNs defaultParams 1 1000000 = 18000 := by
  decide

/-- Settles O59: EXEC runs one transaction, READ two, MASK none; right after reset N is 1 and the parameters are the
defaults. -/
theorem durationLowerBounds : Obligations.DurationLowerBounds := by
  refine ⟨fun s f => ⟨?exec, ?read, ?mask⟩, ?defaults⟩
  case exec => exact requestMinNs_of_oneTransaction s f rfl
  case read => rw [requestMinNs_of_twoTransactions s f rfl, requestMinNs_of_oneTransaction s f rfl]
  case mask => exact requestMinNs_of_noTransaction s f rfl
  case defaults => exact (requestMinNs_of_oneTransaction State.reset 1000000 rfl).trans transactionMinNs_defaults

end Sys2Proof.Machine
